-- ==== Sys2Proof/Word.lean ====
section
/-! DEFINITION. The plain types every other file is written with: bytes, codes, numbers, the three chips, the frame of
three bytes, and the word in which a request reaches the block (spec/30_encoding.md R80, R92 to R95). -/

namespace Sys2Proof

/-- One element of a Command or a RawResponse, 8 bits (BYTE_W, 00_scope.md R6, 92_eei_decisions.md D10). -/
abbrev Byte := BitVec 8

/-- A DigitalCode, unsigned, 10 bits (CODE_W, R6, R29). -/
abbrev Code := BitVec 10

/-- NUM_T, the exact rationals: ReferenceVoltage and AnalogReading (43_voltage_scaler.md R161, D8). -/
abbrev NumT := Rat

/-- A transport handle: an opaque name that the block only passes back (10_state.md R27). No operation computes on it. -/
abbrev Handle := Nat

/-- A physical link, one per bus/device pair (R34). The number only names the link; see Config.ownLink. -/
abbrev Link := Nat

/-- The closed variant of the chips (R22, R37). -/
inductive ChipModel where
  | mcp3002
  | mcp3004
  | mcp3008
  deriving DecidableEq, Repr

/-- The two supported combinations of clock polarity and phase (R26, R94). -/
inductive SpiMode where
  | mode0
  | mode3
  deriving DecidableEq, Repr

/-- A sequence of exactly three bytes, element 0 first (R81, 20_memory.md R51). -/
structure Frame where
  b0 : Byte
  b1 : Byte
  b2 : Byte
  deriving DecidableEq, Repr

/-- One operand of a host request as it arrives, before it is checked (R92, R95). The ChipModel and the SPI mode have
the bit fields of R93 and R94; the other operands have no binary form in the spec and arrive as values. -/
inductive Operand where
  | chip (field : BitVec 2)
  | mode (field : BitVec 2)
  | int (z : Int)
  | num (q : NumT)
  | handle (h : Handle)
  | bytes (bs : List Byte)
  | code (c : Code)
  | absent
  deriving DecidableEq, Repr

/-- The word that names an instruction, one form per format of R80.
`hostop` is a host request: the 3-bit selector and its operands.
`cmd24` is a Command frame as one 24-bit word (element 0 in bits 23:16), with the field of the chip it is meant for,
because a frame does not identify its chip (R89).
`rsp24` is a RawResponse frame as one 24-bit word. -/
inductive ReqWord where
  | hostop (op : BitVec 3) (operands : List Operand)
  | cmd24 (chip : BitVec 2) (word : BitVec 24)
  | rsp24 (word : BitVec 24)
  deriving DecidableEq, Repr

end Sys2Proof
end

