-- ==== Sys2Proof/Config.lean ====
section
/-! DEFINITION. What an implementation fixes and the spec leaves OPEN (00_scope.md R6). The constants with no body are
free: nothing can be proved of their values. -/

namespace Sys2Proof.Config

/-- LINK_BUS_ID, OPEN: the bus identifier the instance passes to Open (R6, 92_eei_decisions.md D12). -/
opaque linkBusId : Nat

/-- LINK_DEVICE_ID, OPEN: the device identifier the instance passes to Open (R6, D12). -/
opaque linkDeviceId : Nat

/-- TRACE, OPEN: whether the trace port exists (R6, D28). -/
opaque tracePresent : Bool

/-- Whether a record is made for an exchange that failed. The spec does not say (41_transaction_executor.md R136,
91_not_in_source.md N28). -/
opaque traceFailedExchange : Bool

/-- The link of this instance, the pair (LINK_BUS_ID, LINK_DEVICE_ID), is the link that the model names 0. Every other
bus/device pair has another name. DESIGN CHOICE (notes/assumptions/4.md): only names are compared, never identifiers. -/
def ownLink : Link := 0

end Sys2Proof.Config
end

