-- ==== Sys2Proof/Syntax.lean ====
section
/-! DEFINITION. The instructions: one constructor per row of spec/opcode_table.json. -/

namespace Sys2Proof

/-- The eight operations (30_encoding.md R92), the seventeen Command-frame rows (R89) and the RawResponse row (R87).
A frame row stands for the operation that its rule names: a `cmd24` row for ENCODE of the chip and channel that the row
fixes (R110), `rsp24` for DECODE of the three bytes (R145). DESIGN CHOICE, notes/assumptions/1.md. -/
inductive Instr where
  | configure (chip : BitVec 2) (chDefault : Int) (clockHz : Int) (vref : Option NumT) (mode : SpiMode)
  | sread (ch : Option Int)
  | close
  | read (chip : ChipModel) (ch : Int) (vref : NumT) (handle : Handle)
  | encode (chip : ChipModel) (ch : Int)
  | xfer (cmd : Frame) (handle : Handle)
  | decode (rsp : List Byte)
  | scale (code : Code) (vref : NumT)
  | cmd24Mcp3002 (c : BitVec 1)
  | cmd24Mcp3004 (cc : BitVec 2)
  | cmd24Mcp3008 (ccc : BitVec 3)
  | cmd24Mcp3002Ch0
  | cmd24Mcp3002Ch1
  | cmd24Mcp3004Ch0
  | cmd24Mcp3004Ch1
  | cmd24Mcp3004Ch2
  | cmd24Mcp3004Ch3
  | cmd24Mcp3008Ch0
  | cmd24Mcp3008Ch1
  | cmd24Mcp3008Ch2
  | cmd24Mcp3008Ch3
  | cmd24Mcp3008Ch4
  | cmd24Mcp3008Ch5
  | cmd24Mcp3008Ch6
  | cmd24Mcp3008Ch7
  | rsp24 (x : BitVec 14) (d : BitVec 10)
  deriving DecidableEq, Repr

end Sys2Proof
end

