-- ==== Sys2Proof/Decode.lean ====
section
/-! DEFINITION. From request words to instructions and back (spec/30_encoding.md). The decoder is total on every request
word and rejects by name; the encoder is written from the same tables. -/

namespace Sys2Proof

/-- Why a request word names no instruction. Each is a request to which the spec gives no meaning ("refused").
`reservedChip`: a ChipModel field of 0b11 outside CONFIGURE (R91 (b), 93_implementation_defined.md U3).
`unsupportedMode`: an SPI mode field of 0b01 or 0b10 (R94, U4).
`commandLength`: a `cmd` operand that is not three bytes (U20).
`operandShape`: the operands are not the ones R92 lists for the operation.
`notACommandFrame`: a CMD24 word outside the rows of R89 for its chip (R90). -/
inductive Reject where
  | reservedChip
  | unsupportedMode
  | commandLength (n : Nat)
  | operandShape
  | notACommandFrame
  deriving DecidableEq, Repr

/-! ## Fields -/

/-- The ChipModel field of R93; 0b11 is no ChipModel. -/
def chipOfField (f : BitVec 2) : Option ChipModel :=
  match f.toNat with
  | 0 => some .mcp3002
  | 1 => some .mcp3004
  | 2 => some .mcp3008
  | _ => none

/-- The field of a ChipModel (R93). -/
def chipField (c : ChipModel) : BitVec 2 :=
  match c with
  | .mcp3002 => 0b00#2
  | .mcp3004 => 0b01#2
  | .mcp3008 => 0b10#2

/-- The SPI mode field (CPOL, CPHA) of R94; 0b01 and 0b10 are not supported. -/
def modeOfField (f : BitVec 2) : Option SpiMode :=
  match f.toNat with
  | 0 => some .mode0
  | 3 => some .mode3
  | _ => none

/-- The field of an SPI mode (R94). -/
def modeField (m : SpiMode) : BitVec 2 :=
  match m with
  | .mode0 => 0b00#2
  | .mode3 => 0b11#2

/-- A Command from the byte sequence of an operand: three bytes, element 0 first (R95, R81). -/
def frameOfBytes (bs : List Byte) : Option Frame :=
  match bs with
  | [b0, b1, b2] => some ⟨b0, b1, b2⟩
  | _ => none

/-- The bytes of a frame, element 0 first (20_memory.md R51). -/
def Frame.bytes (f : Frame) : List Byte := [f.b0, f.b1, f.b2]

/-- A frame written as one 24-bit word: element 0 is bits 23:16, element 2 is bits 7:0 (R80). -/
def Frame.word (f : Frame) : BitVec 24 := f.b0 ++ f.b1 ++ f.b2

/-- The frame that a 24-bit word writes (R80). -/
def frameOfWord (w : BitVec 24) : Frame :=
  ⟨w.extractLsb' 16 8, w.extractLsb' 8 8, w.extractLsb' 0 8⟩

/-- The RSP24 word with ignored bits `x` and code bits `d`: pattern `xxxxxxxx xxxxxxdd dddddddd` (R87). -/
def rspWord (x : BitVec 14) (d : BitVec 10) : BitVec 24 := x ++ d

/-! ## The table of Command frames -/

/-- One row of R89: chip, channel, the frame as a 24-bit word, and the instruction of the opcode table's exact row. -/
structure CmdRow where
  chip : ChipModel
  channel : Nat
  word : BitVec 24
  instr : Instr
  deriving DecidableEq, Repr

/-- The fourteen rows of R89, copied from the spec's table and not computed. -/
def cmdRows : List CmdRow :=
  [⟨.mcp3002, 0, 0x018000#24, .cmd24Mcp3002Ch0⟩,
   ⟨.mcp3002, 1, 0x01C000#24, .cmd24Mcp3002Ch1⟩,
   ⟨.mcp3004, 0, 0x018000#24, .cmd24Mcp3004Ch0⟩,
   ⟨.mcp3004, 1, 0x019000#24, .cmd24Mcp3004Ch1⟩,
   ⟨.mcp3004, 2, 0x01A000#24, .cmd24Mcp3004Ch2⟩,
   ⟨.mcp3004, 3, 0x01B000#24, .cmd24Mcp3004Ch3⟩,
   ⟨.mcp3008, 0, 0x018000#24, .cmd24Mcp3008Ch0⟩,
   ⟨.mcp3008, 1, 0x019000#24, .cmd24Mcp3008Ch1⟩,
   ⟨.mcp3008, 2, 0x01A000#24, .cmd24Mcp3008Ch2⟩,
   ⟨.mcp3008, 3, 0x01B000#24, .cmd24Mcp3008Ch3⟩,
   ⟨.mcp3008, 4, 0x01C000#24, .cmd24Mcp3008Ch4⟩,
   ⟨.mcp3008, 5, 0x01D000#24, .cmd24Mcp3008Ch5⟩,
   ⟨.mcp3008, 6, 0x01E000#24, .cmd24Mcp3008Ch6⟩,
   ⟨.mcp3008, 7, 0x01F000#24, .cmd24Mcp3008Ch7⟩]

/-- The row of a frame, for the chip it is meant for. -/
def findCmdRow (chip : ChipModel) (w : BitVec 24) : Option CmdRow :=
  cmdRows.find? fun r => decide (r.chip = chip ∧ r.word = w)

/-! ## The decoder -/

/-- A host request: the selector of R92 and its operands in the order R92 lists them. An optional operand that the host
does not give is `absent`; the four other operands of CONFIGURE are mandatory (45_session_operations.md R196). -/
def decodeHostop (op : BitVec 3) (operands : List Operand) : Except Reject Instr :=
  match op.toNat, operands with
  | 0, [.chip c, .int chDefault, .int hz, .num v, .mode m] =>
    match modeOfField m with
    | some mode => .ok (.configure c chDefault hz (some v) mode)
    | none => .error .unsupportedMode
  | 0, [.chip c, .int chDefault, .int hz, .absent, .mode m] =>
    match modeOfField m with
    | some mode => .ok (.configure c chDefault hz none mode)
    | none => .error .unsupportedMode
  | 1, [.int ch] => .ok (.sread (some ch))
  | 1, [.absent] => .ok (.sread none)
  | 2, [] => .ok .close
  | 3, [.chip c, .int ch, .num v, .handle h] =>
    match chipOfField c with
    | some chip => .ok (.read chip ch v h)
    | none => .error .reservedChip
  | 4, [.chip c, .int ch] =>
    match chipOfField c with
    | some chip => .ok (.encode chip ch)
    | none => .error .reservedChip
  | 5, [.bytes bs, .handle h] =>
    match frameOfBytes bs with
    | some cmd => .ok (.xfer cmd h)
    | none => .error (.commandLength bs.length)
  | 6, [.bytes bs] => .ok (.decode bs)
  | 7, [.code c, .num v] => .ok (.scale c v)
  | _, _ => .error .operandShape

/-- The instruction that a request word names, or the reason why it names none. A CMD24 word names the exact row of its
chip; a RSP24 word is always a RawResponse ("every one of the 2 to the power 24 three-byte sequences", R87). -/
def decode (w : ReqWord) : Except Reject Instr :=
  match w with
  | .hostop op operands => decodeHostop op operands
  | .cmd24 c word =>
    match chipOfField c with
    | none => .error .reservedChip
    | some chip =>
      match findCmdRow chip word with
      | some row => .ok row.instr
      | none => .error .notACommandFrame
  | .rsp24 word => .ok (.rsp24 (word.extractLsb' 10 14) (word.extractLsb' 0 10))

/-! ## The encoder -/

/-- The operand for an optional value. -/
def optionOperand {α : Type} (mk : α → Operand) (o : Option α) : Operand :=
  match o with
  | some a => mk a
  | none => .absent

/-- The request word of an instruction. The pattern rows put their channel bits where the patterns of R89 have them:
`00000001 1c000000 00000000`, `00000001 10cc0000 00000000`, `00000001 1ccc0000 00000000`. -/
def encode (i : Instr) : ReqWord :=
  match i with
  | .configure c chDefault hz v m =>
    .hostop 0b000#3 [.chip c, .int chDefault, .int hz, optionOperand .num v, .mode (modeField m)]
  | .sread ch => .hostop 0b001#3 [optionOperand .int ch]
  | .close => .hostop 0b010#3 []
  | .read chip ch v h => .hostop 0b011#3 [.chip (chipField chip), .int ch, .num v, .handle h]
  | .encode chip ch => .hostop 0b100#3 [.chip (chipField chip), .int ch]
  | .xfer cmd h => .hostop 0b101#3 [.bytes cmd.bytes, .handle h]
  | .decode rsp => .hostop 0b110#3 [.bytes rsp]
  | .scale c v => .hostop 0b111#3 [.code c, .num v]
  | .cmd24Mcp3002 c => .cmd24 0b00#2 (0b000000011#9 ++ c ++ 0#14)
  | .cmd24Mcp3004 cc => .cmd24 0b01#2 (0b0000000110#10 ++ cc ++ 0#12)
  | .cmd24Mcp3008 ccc => .cmd24 0b10#2 (0b000000011#9 ++ ccc ++ 0#12)
  | .cmd24Mcp3002Ch0 => .cmd24 0b00#2 0x018000#24
  | .cmd24Mcp3002Ch1 => .cmd24 0b00#2 0x01C000#24
  | .cmd24Mcp3004Ch0 => .cmd24 0b01#2 0x018000#24
  | .cmd24Mcp3004Ch1 => .cmd24 0b01#2 0x019000#24
  | .cmd24Mcp3004Ch2 => .cmd24 0b01#2 0x01A000#24
  | .cmd24Mcp3004Ch3 => .cmd24 0b01#2 0x01B000#24
  | .cmd24Mcp3008Ch0 => .cmd24 0b10#2 0x018000#24
  | .cmd24Mcp3008Ch1 => .cmd24 0b10#2 0x019000#24
  | .cmd24Mcp3008Ch2 => .cmd24 0b10#2 0x01A000#24
  | .cmd24Mcp3008Ch3 => .cmd24 0b10#2 0x01B000#24
  | .cmd24Mcp3008Ch4 => .cmd24 0b10#2 0x01C000#24
  | .cmd24Mcp3008Ch5 => .cmd24 0b10#2 0x01D000#24
  | .cmd24Mcp3008Ch6 => .cmd24 0b10#2 0x01E000#24
  | .cmd24Mcp3008Ch7 => .cmd24 0b10#2 0x01F000#24
  | .rsp24 x d => .rsp24 (rspWord x d)

/-- The instruction that the decoder gives for `encode i`. A pattern row of the opcode table and the exact rows of its
chip are two names of the same words; the decoder answers with the exact row. -/
def Instr.canonical (i : Instr) : Instr :=
  match i with
  | .cmd24Mcp3002 c => if c = 0 then .cmd24Mcp3002Ch0 else .cmd24Mcp3002Ch1
  | .cmd24Mcp3004 cc =>
    match cc.toNat with
    | 0 => .cmd24Mcp3004Ch0
    | 1 => .cmd24Mcp3004Ch1
    | 2 => .cmd24Mcp3004Ch2
    | _ => .cmd24Mcp3004Ch3
  | .cmd24Mcp3008 ccc =>
    match ccc.toNat with
    | 0 => .cmd24Mcp3008Ch0
    | 1 => .cmd24Mcp3008Ch1
    | 2 => .cmd24Mcp3008Ch2
    | 3 => .cmd24Mcp3008Ch3
    | 4 => .cmd24Mcp3008Ch4
    | 5 => .cmd24Mcp3008Ch5
    | 6 => .cmd24Mcp3008Ch6
    | _ => .cmd24Mcp3008Ch7
  | .configure c chDefault hz v m => .configure c chDefault hz v m
  | .sread ch => .sread ch
  | .close => .close
  | .read chip ch v h => .read chip ch v h
  | .encode chip ch => .encode chip ch
  | .xfer cmd h => .xfer cmd h
  | .decode rsp => .decode rsp
  | .scale c v => .scale c v
  | .cmd24Mcp3002Ch0 => .cmd24Mcp3002Ch0
  | .cmd24Mcp3002Ch1 => .cmd24Mcp3002Ch1
  | .cmd24Mcp3004Ch0 => .cmd24Mcp3004Ch0
  | .cmd24Mcp3004Ch1 => .cmd24Mcp3004Ch1
  | .cmd24Mcp3004Ch2 => .cmd24Mcp3004Ch2
  | .cmd24Mcp3004Ch3 => .cmd24Mcp3004Ch3
  | .cmd24Mcp3008Ch0 => .cmd24Mcp3008Ch0
  | .cmd24Mcp3008Ch1 => .cmd24Mcp3008Ch1
  | .cmd24Mcp3008Ch2 => .cmd24Mcp3008Ch2
  | .cmd24Mcp3008Ch3 => .cmd24Mcp3008Ch3
  | .cmd24Mcp3008Ch4 => .cmd24Mcp3008Ch4
  | .cmd24Mcp3008Ch5 => .cmd24Mcp3008Ch5
  | .cmd24Mcp3008Ch6 => .cmd24Mcp3008Ch6
  | .cmd24Mcp3008Ch7 => .cmd24Mcp3008Ch7
  | .rsp24 x d => .rsp24 x d

/-! ## The opcode table's bits -/

/-- The match and mask of an instruction's row in spec/opcode_table.json, on 3 bits for a HOSTOP row and on 24 bits for
a frame row: (number of bits, match, mask). -/
def Instr.tableRow (i : Instr) : Nat × Nat × Nat :=
  match i with
  | .configure _ _ _ _ _ => (3, 0x0, 0x7)
  | .sread _ => (3, 0x1, 0x7)
  | .close => (3, 0x2, 0x7)
  | .read _ _ _ _ => (3, 0x3, 0x7)
  | .encode _ _ => (3, 0x4, 0x7)
  | .xfer _ _ => (3, 0x5, 0x7)
  | .decode _ => (3, 0x6, 0x7)
  | .scale _ _ => (3, 0x7, 0x7)
  | .cmd24Mcp3002 _ => (24, 0x018000, 0xFFBFFF)
  | .cmd24Mcp3004 _ => (24, 0x018000, 0xFFCFFF)
  | .cmd24Mcp3008 _ => (24, 0x018000, 0xFF8FFF)
  | .cmd24Mcp3002Ch0 => (24, 0x018000, 0xFFFFFF)
  | .cmd24Mcp3002Ch1 => (24, 0x01C000, 0xFFFFFF)
  | .cmd24Mcp3004Ch0 => (24, 0x018000, 0xFFFFFF)
  | .cmd24Mcp3004Ch1 => (24, 0x019000, 0xFFFFFF)
  | .cmd24Mcp3004Ch2 => (24, 0x01A000, 0xFFFFFF)
  | .cmd24Mcp3004Ch3 => (24, 0x01B000, 0xFFFFFF)
  | .cmd24Mcp3008Ch0 => (24, 0x018000, 0xFFFFFF)
  | .cmd24Mcp3008Ch1 => (24, 0x019000, 0xFFFFFF)
  | .cmd24Mcp3008Ch2 => (24, 0x01A000, 0xFFFFFF)
  | .cmd24Mcp3008Ch3 => (24, 0x01B000, 0xFFFFFF)
  | .cmd24Mcp3008Ch4 => (24, 0x01C000, 0xFFFFFF)
  | .cmd24Mcp3008Ch5 => (24, 0x01D000, 0xFFFFFF)
  | .cmd24Mcp3008Ch6 => (24, 0x01E000, 0xFFFFFF)
  | .cmd24Mcp3008Ch7 => (24, 0x01F000, 0xFFFFFF)
  | .rsp24 _ _ => (24, 0x000000, 0x000000)

/-- The bits that a request word gives the opcode table: (number of bits, value). -/
def ReqWord.tableBits (w : ReqWord) : Nat × Nat :=
  match w with
  | .hostop op _ => (3, op.toNat)
  | .cmd24 _ word => (24, word.toNat)
  | .rsp24 word => (24, word.toNat)

/-! ## Words given by the table's bits alone -/

/-- The operands that stand for operand words of zeros. The table gives the operands of a HOSTOP row no bits: the
ChipModel field is 0b00, integers, handles and codes are 0, an optional operand is absent, the SPI mode field is 0b00
and a byte sequence is three zero bytes. A reference voltage that must be given is positive, so no zero stands for one;
it is 5, the only value the spec names for a voltage that is not given (R6). DESIGN CHOICE, notes/assumptions/3.md. -/
def zeroOperands (op : Nat) : List Operand :=
  match op with
  | 0 => [.chip 0b00#2, .int 0, .int 0, .absent, .mode 0b00#2]
  | 1 => [.absent]
  | 2 => []
  | 3 => [.chip 0b00#2, .int 0, .num 5, .handle 0]
  | 4 => [.chip 0b00#2, .int 0]
  | 5 => [.bytes [0#8, 0#8, 0#8], .handle 0]
  | 6 => [.bytes [0#8, 0#8, 0#8]]
  | _ => [.code 0#10, .num 5]

/-- The request word that `nbits` bits of value `w` of the opcode table stand for. Up to eight bits hold a HOSTOP
selector in bits 2:0 with zeros above it. 24 bits are a Command frame if they are one of the eight frames, and otherwise
a RawResponse. The eight frames are all frames of the MCP3008, so that chip is taken: the word does not say which chip
it is meant for (R89). DESIGN CHOICE, notes/assumptions/2.md. -/
def tableRequest (nbits w : Nat) : Option ReqWord :=
  if nbits ≤ 8 then
    if w < 8 then some (.hostop (BitVec.ofNat 3 w) (zeroOperands w)) else none
  else if nbits = 24 ∧ w < 2 ^ 24 then
    match findCmdRow .mcp3008 (BitVec.ofNat 24 w) with
    | some _ => some (.cmd24 0b10#2 (BitVec.ofNat 24 w))
    | none => some (.rsp24 (BitVec.ofNat 24 w))
  else none

/-- The instruction that the decoder reads from an opcode-table word: see `tableRequest`. -/
def decodeTableWord (nbits w : Nat) : Option Instr :=
  match tableRequest nbits w with
  | some word =>
    match decode word with
    | .ok i => some i
    | .error _ => none
  | none => none

end Sys2Proof
end

