-- ==== Sys2Proof/Machine/State.lean ====
section
/-! DEFINITION. The state of the block, of the request contexts in flight and of what the Bus Transport keeps
(spec/10_state.md), the two reasons a step can stop, and the state after reset. -/

namespace Sys2Proof.Machine

/-! ## What an operation answers -/

/-- The operand that an InvalidConfiguration names (60_exceptions.md R220, 92_eei_decisions.md D29). -/
inductive ConfigOperand where
  | chipModel
  | referenceVoltage
  | clockHz
  deriving DecidableEq, Repr

/-- The cause that a TransportError names (R220, R223). -/
inductive TransportCause where
  | openFailed
  | exchangeFailed
  | lengthMismatch (count : Nat)
  deriving DecidableEq, Repr

/-- The four failures with the information each delivers (R220). -/
inductive Failure where
  | invalidConfiguration (which : ConfigOperand)
  | invalidChannel (ch : Int) (chip : ChipModel)
  | transportError (cause : TransportCause)
  | malformedResponse (count : Nat)
  deriving DecidableEq, Repr

/-- The result of an operation that completed (30_encoding.md R92). -/
inductive Result where
  | none
  | command (cmd : Frame)
  | response (rsp : List Byte)
  | code (c : Code)
  | reading (v : NumT)
  deriving DecidableEq, Repr

/-- The reply of an operation, `Ok(result)` or `Fail(code, info)` (R92, 60_exceptions.md R230). -/
inductive Reply where
  | ok (r : Result)
  | fail (f : Failure)
  deriving DecidableEq, Repr

/-! ## The session slot -/

/-- The life-cycle state SSTATE (10_state.md R21). -/
inductive SState where
  | unconfigured
  | opened
  | closed
  deriving DecidableEq, Repr

/-- The six session registers beside SSTATE (R22 to R27). -/
structure Regs where
  chip : ChipModel
  vref : NumT
  chDefault : Int
  clockHz : Int
  spiMode : SpiMode
  handle : Handle
  deriving DecidableEq, Repr

/-- The session slot. The six registers are "fields that exist only in the OPEN and CLOSED variants of the slot" (R36):
the spec's reset value of each is that it has none. -/
inductive Session where
  | unconfigured
  | opened (r : Regs)
  | closed (r : Regs)
  deriving DecidableEq, Repr

/-- SSTATE of a slot (R21). -/
def Session.sstate (s : Session) : SState :=
  match s with
  | .unconfigured => .unconfigured
  | .opened _ => .opened
  | .closed _ => .closed

/-! ## Request contexts -/

/-- PHASE of a request context that waits for its next step, with the value the context has by then (R29, R31).
BUILD lies inside the step that issues the request and no context rests in it (44_read_orchestrator.md R188).
`wait`: the Command is built, the link is not yet acquired.
`exch`: the exchange is in flight; `link` is the link whose lock is held (none for a handle that never named one) and
`live` says whether the transport could make the exchange, that is whether the handle was open when it was called.
`decode`: the exchange is over, the lock released, RSP accepted.
`scale`: CODE decoded. -/
inductive Phase where
  | wait
  | exch (link : Option Link) (live : Bool)
  | decode (rsp : List Byte)
  | scale (code : Code)
  deriving DecidableEq, Repr

/-- CH, CHIPc and VREFc of a reading request (R29). -/
structure ReadVals where
  ch : Int
  chip : ChipModel
  vref : NumT
  deriving DecidableEq, Repr

/-- The operation that a context belongs to. -/
inductive Origin where
  | xfer
  | read (v : ReadVals)
  | sread (v : ReadVals)
  deriving DecidableEq, Repr

/-- The request context of an XFER, READ or SREAD in flight (R29). `ticket` names the request; `usable` is false for an
SREAD issued on a CLOSED session, whose exchange can only answer Failed (45_session_operations.md R204). -/
structure Ctx where
  ticket : Nat
  origin : Origin
  cmd : Frame
  handle : Handle
  usable : Bool
  phase : Phase
  deriving DecidableEq, Repr

/-- A CONFIGURE that has passed its checks and waits for the answer of Open (R195, R200). -/
structure Opening where
  ticket : Nat
  chip : ChipModel
  vref : NumT
  chDefault : Int
  clockHz : Int
  spiMode : SpiMode
  deriving DecidableEq, Repr

/-! ## The Bus Transport and the other agents -/

/-- An entry of the transport's handle table (R34 (b)): the link the handle names, and whether the handle is open. -/
structure HandleEntry where
  link : Link
  isOpen : Bool
  deriving DecidableEq, Repr

/-- What the transport may answer: Handle(h), Bytes(s), Done or Failed (00_scope.md R9, 41_transaction_executor.md R133,
R139). A call that is never answered is one for which no answer ever comes. -/
inductive Answer where
  | handle (h : Handle)
  | bytes (s : List Byte)
  | done
  | failed
  deriving DecidableEq, Repr

/-- A move of an agent other than the issue of a request (R12, 60_exceptions.md R239).
`advance t`: request `t` takes its next own step (Acquire, DECODE or SCALE).
`answer t a`: the transport answers the call that request `t` is blocked in.
`outsideOpen`, `outsideClose`, `outsideTake`, `outsideFree`: another user of the same transport (a host caller, another
instance) opens or closes a handle of its own, or takes or frees a link (R20, 93_implementation_defined.md U23,
95_test_vectors.md P6). -/
inductive Move where
  | advance (ticket : Nat)
  | answer (ticket : Nat) (a : Answer)
  | outsideOpen (h : Handle) (link : Link)
  | outsideClose (h : Handle)
  | outsideTake (link : Link)
  | outsideFree (link : Link)
  deriving DecidableEq, Repr

/-- What happens next: a host caller issues a request, or another agent moves. -/
inductive Event where
  | request (w : ReqWord)
  | move (m : Move)
  deriving DecidableEq, Repr

/-- A call that the transport has received (R50). -/
inductive Call where
  | open (busId deviceId : Nat) (clockHz : Int) (mode : SpiMode)
  | exchange (h : Handle) (cmd : Frame)
  | close (h : Handle)
  deriving DecidableEq, Repr

/-- A record handed to the trace observer: "which bus/device identifiers were used and what was read back"
(60_exceptions.md R241), or a failed Close (R242). The layout is not given (91_not_in_source.md N19); the link stands
for the pair of identifiers. -/
inductive TraceRecord where
  | exchange (link : Option Link) (ans : Answer)
  | closeFailed (h : Handle)
  deriving DecidableEq, Repr

/-! ## The state -/

/-- Everything the spec gives the machine, and the moves of the outside that are still to come. -/
structure State where
  /-- the session slot: SSTATE, CHIP, VREF, CH_DEFAULT, CLOCK_HZ, SPI_MODE, HANDLE (R20 to R27) -/
  session : Session
  /-- the request contexts of the XFERs, READs and SREADs in flight, in the order of their issue (R29) -/
  contexts : List Ctx
  /-- the CONFIGUREs in flight, each blocked in Open -/
  opening : List Opening
  /-- the ticket of the CLOSE in flight, if one is blocked in Close -/
  closing : Option Nat
  /-- the links whose BUSY bit is 1, in rising order (R34 (a)) -/
  busy : List Link
  /-- the busy links that another user of the transport holds, in rising order -/
  outside : List Link
  /-- the transport's handle table, in rising order of handles; a handle not listed was never opened (R34 (b)) -/
  handles : List (Handle × HandleEntry)
  /-- how many requests have been accepted: the name of the next one -/
  nextTicket : Nat
  /-- what the host and the other agents do next, soonest first -/
  inbox : List Event
  /-- the replies delivered, oldest first, each with the request it answers (R230) -/
  replies : List (Nat × Reply)
  /-- the calls the transport has received, oldest first -/
  calls : List Call
  /-- the Command frames that have gone out on a link, oldest first -/
  wire : List (Link × Frame)
  /-- the records handed to the trace observer, oldest first (R241) -/
  trace : List TraceRecord
  deriving DecidableEq, Repr

/-! ## Where a step stops -/

/-- The reasons to stop with a fault: none. The four failures of the block are replies, delivered in a next state, and
nothing in the block stops it (60_exceptions.md R230, R231). Safe: no step ends in a fault. -/
inductive Fault where
  deriving DecidableEq, Repr

/-- The requests to which the spec gives no meaning ("refuse", 00_scope.md R9). All are safe: nothing is proved of a run
past one. -/
inductive Refusal where
  /-- Raised by exec for an instruction that has no meaning yet. Safe. -/
  | notModelled (mnemonic : String)
  /-- Raised by step: the request word names no instruction (30_encoding.md R91, R94; U3, U4, U20). Safe. -/
  | badRequest (why : Reject)
  /-- Raised by CONFIGURE, at its issue or where it would write the registers: the session is OPEN (R201, U14). Safe. -/
  | configureWhileOpen
  /-- Raised by CONFIGURE and CLOSE, at their issue or where they would write the registers: an SREAD of the slot is in
  flight (R201, R212, U17). Safe. -/
  | sreadInFlight
  /-- Raised by SREAD and CLOSE: no session was ever produced in the slot (R204, R210, U15). Safe. -/
  | noSession
  /-- Raised by CLOSE: another CLOSE of the slot has called Close and has no answer yet; a second call would release the
  handle twice (R139, R210; notes/assumptions/9.md). Safe. -/
  | closeInFlight
  /-- Raised by READ and SCALE: the reference voltage is not positive (R166, R186, U6). Safe. -/
  | nonPositiveReference
  deriving DecidableEq, Repr

/-- The outcome of a step of this machine. -/
abbrev Outcome := Host.Outcome State Fault Refusal

/-- The state after reset (10_state.md R36, 70_reset_and_hazards.md R260): no session, no request in flight, every link
free, no handle open. The logs and the inbox are the model's own and start empty. -/
def State.reset : State :=
  { session := .unconfigured, contexts := [], opening := [], closing := none, busy := [], outside := [], handles := [],
    nextTicket := 0, inbox := [], replies := [], calls := [], wire := [], trace := [] }

end Sys2Proof.Machine
end

