-- ==== Sys2Proof/Machine/Flags.lean ====
section
/-! DEFINITION. The block has no status flags, condition codes or predicates (10_state.md R32) and no error register (R33).
What stands in their place is the numeric code of a reply (60_exceptions.md R220). -/

namespace Sys2Proof.Machine

/-- The code of a failure (R220; the numbers are the spec's own, 92_eei_decisions.md D6). FAULT_W is 3 bits (R6). -/
def Failure.code (f : Failure) : BitVec 3 :=
  match f with
  | .invalidConfiguration _ => 1#3
  | .invalidChannel _ _ => 2#3
  | .transportError _ => 3#3
  | .malformedResponse _ => 4#3

/-- The code of a reply; 0 is "no failure" (R220). -/
def Reply.code (r : Reply) : BitVec 3 :=
  match r with
  | .ok _ => 0#3
  | .fail f => f.code

end Sys2Proof.Machine
end

