-- ==== Sys2Proof/Machine/Operands.lean ====
section
/-! DEFINITION. Operands: the fixed parameters of 00_scope.md R6, the chip table of 10_state.md R37, and how an operand of
a request becomes a value of its context. -/

namespace Sys2Proof.Machine

/-- START_BYTE, element 0 of every Command: "the start bit" (30_encoding.md R82). -/
def startByte : Byte := 0b00000001#8

/-- DONTCARE_BYTE, element 2 of every Command (R85). -/
def dontCareByte : Byte := 0x00#8

/-- FRAME_LEN (R6, R96). -/
def frameLen : Nat := 3

/-- DIVISOR (R6, 43_voltage_scaler.md R160): 1024 and not 1023. -/
def divisor : NumT := 1024

/-- VREF_DEFAULT, "default 5.0" (R6, 45_session_operations.md R196). -/
def vrefDefault : NumT := 5

/-- The marker of the chip table: the single-ended mode flag below the shift (R37). -/
def marker (chip : ChipModel) : Nat :=
  match chip with
  | .mcp3002 => 0b10
  | .mcp3004 => 0b1000
  | .mcp3008 => 0b1000

/-- The shift of the chip table (R37). -/
def shift (chip : ChipModel) : Nat :=
  match chip with
  | .mcp3002 => 6
  | .mcp3004 => 4
  | .mcp3008 => 4

/-- The largest legal channel of the chip table (R37). -/
def maxChannel (chip : ChipModel) : Nat :=
  match chip with
  | .mcp3002 => 1
  | .mcp3004 => 3
  | .mcp3008 => 7

/-- A channel is legal for a chip when it lies in 0..max_channel, compared as an integer (40_command_encoder.md R111). -/
abbrev channelLegal (chip : ChipModel) (ch : Int) : Prop := 0 ≤ ch ∧ ch ≤ maxChannel chip

/-- The reference voltage that CONFIGURE uses: the one given, else the default (R196). -/
def configVref (vref : Option NumT) : NumT := vref.getD vrefDefault

/-- The channel that SREAD uses: "channel overrides the default per call" (R205). -/
def sreadChannel (ch : Option Int) (r : Regs) : Int := ch.getD r.chDefault

end Sys2Proof.Machine
end

