-- ==== Sys2Proof/Machine/Ops.lean ====
section
/-! DEFINITION. The operations every meaning is built from: the four units as functions of their inputs, the accessors of
the state, the delivery of a reply (in place of taking an exception), the link lock, the exchange, and the own steps of a
request context. -/

namespace Sys2Proof.Machine

/-! ## The units as functions of their inputs -/

/-- CMD[1] = zext_8((marker | channel) << shift) (30_encoding.md R86, 40_command_encoder.md R113). -/
def controlByte (chip : ChipModel) (ch : Nat) : Byte := BitVec.ofNat 8 ((marker chip ||| ch) <<< shift chip)

/-- The Command of a legal channel (R81). -/
def commandFrame (chip : ChipModel) (ch : Nat) : Frame := ⟨startByte, controlByte chip ch, dontCareByte⟩

/-- ENCODE (R110): the range check before anything else (R111), then the three bytes. -/
def encodeUnit (chip : ChipModel) (ch : Int) : Except Failure Frame :=
  if ch < 0 ∨ (maxChannel chip : Int) < ch then .error (.invalidChannel ch chip)
  else .ok (commandFrame chip ch.toNat)

/-- The 10-bit code of bytes 1 and 2 of a response (30_encoding.md R88, 42_response_decoder.md R147). -/
def codeOf (b1 b2 : Byte) : Code := BitVec.ofNat 10 (((b1.toNat &&& 0b11) <<< 8) ||| b2.toNat)

/-- DECODE (R145): the length check (R146), then the reassembly (R147). -/
def decodeUnit (rsp : List Byte) : Except Failure Code :=
  match rsp with
  | [_, b1, b2] => .ok (codeOf b1 b2)
  | _ => .error (.malformedResponse rsp.length)

/-- SCALE (43_voltage_scaler.md R160 to R162): the product first, then the quotient, on exact rationals. -/
def scaleUnit (code : Code) (vref : NumT) : NumT := (code.toNat : NumT) * vref / divisor

/-- What XFER makes of the transport's answer (41_transaction_executor.md R134, R135): a failed exchange and a byte count
other than 3 are TransportErrors, anything else is returned unchanged. -/
def acceptAnswer (a : Answer) : Except Failure (List Byte) :=
  match a with
  | .bytes s =>
    if s.length = frameLen then .ok s else .error (.transportError (.lengthMismatch s.length))
  | _ => .error (.transportError .exchangeFailed)

/-! ## The handle table -/

/-- The entry of a handle. -/
def findHandle (h : Handle) (t : List (Handle × HandleEntry)) : Option HandleEntry :=
  match t with
  | [] => none
  | (k, e) :: rest => if h = k then some e else findHandle h rest

/-- The table with the entry of `h` set; handles stay in rising order. -/
def putHandle (h : Handle) (e : HandleEntry) (t : List (Handle × HandleEntry)) : List (Handle × HandleEntry) :=
  match t with
  | [] => [(h, e)]
  | (k, e') :: rest =>
    if h < k then (h, e) :: (k, e') :: rest
    else if h = k then (h, e) :: rest
    else (k, e') :: putHandle h e rest

/-- The link a handle names (10_state.md R27); none for a handle that was never opened. -/
def State.linkOf (s : State) (h : Handle) : Option Link := (findHandle h s.handles).map (·.link)

/-- Whether a handle is open (R34 (b)). -/
def State.isOpen (s : State) (h : Handle) : Bool := (findHandle h s.handles).any (·.isOpen)

/-- The transport opens `h` on a link (41_transaction_executor.md R139). -/
def State.openHandle (h : Handle) (link : Link) (s : State) : State :=
  { s with handles := putHandle h ⟨link, true⟩ s.handles }

/-- `h` is released: the entry keeps its link and is open no more. A handle with no entry has nothing to release. -/
def State.releaseHandle (h : Handle) (s : State) : State :=
  match s.linkOf h with
  | some link => { s with handles := putHandle h ⟨link, false⟩ s.handles }
  | none => s

/-! ## The link lock (R34 (a), R131) -/

/-- BUSY of a link, or 0 where there is no link to lock. -/
def State.linkBusy (s : State) (link : Option Link) : Bool :=
  match link with
  | some l => decide (l ∈ s.busy)
  | none => false

/-- The set of links `ls` (in rising order) with `l` in it. -/
def takeLink (l : Link) (ls : List Link) : List Link := List.orderedInsert (· ≤ ·) l ls

/-- The second half of Acquire: BUSY := 1. Callers test BUSY = 0 first, in the same step. -/
def State.lockLink (link : Option Link) (s : State) : State :=
  match link with
  | some l => { s with busy := takeLink l s.busy }
  | none => s

/-- Release: BUSY := 0. -/
def State.unlockLink (link : Option Link) (s : State) : State :=
  match link with
  | some l => { s with busy := s.busy.erase l }
  | none => s

/-! ## Delivery of a reply (60_exceptions.md R230)
A failure is the reply of the operation that met it. Nothing is saved and there is no return operation (R231). -/

/-- The reply of request `t` goes to its caller. -/
def State.deliver (t : Nat) (r : Reply) (s : State) : State := { s with replies := s.replies ++ [(t, r)] }

/-- A request is accepted: the next one has another name. -/
def State.nextRequest (s : State) : State := { s with nextTicket := s.nextTicket + 1 }

/-- A request is accepted and answered in the same step, with no context left behind. -/
def State.replyNow (r : Reply) (s : State) : State := (s.deliver s.nextTicket r).nextRequest

/-- The transport receives a call. -/
def State.logCall (c : Call) (s : State) : State := { s with calls := s.calls ++ [c] }

/-! ## Request contexts (10_state.md R29) -/

/-- The context of request `t`. -/
def State.findCtx (s : State) (t : Nat) : Option Ctx := s.contexts.find? fun c => decide (c.ticket = t)

/-- The contexts with the phase of request `t` set. -/
def setPhase (t : Nat) (p : Phase) (cs : List Ctx) : List Ctx :=
  cs.map fun c => if c.ticket = t then { c with phase := p } else c

/-- The contexts without the one of request `t`: "gone when the operation returns or fails". -/
def dropCtx (t : Nat) (cs : List Ctx) : List Ctx := cs.filter fun c => decide (c.ticket ≠ t)

/-- Request `t` moves to phase `p`. -/
def State.moveTo (t : Nat) (p : Phase) (s : State) : State := { s with contexts := setPhase t p s.contexts }

/-- Request `t` ends with reply `r`. -/
def State.finish (t : Nat) (r : Reply) (s : State) : State :=
  State.deliver t r { s with contexts := dropCtx t s.contexts }

/-- The reading values of a context, none for an XFER. -/
def Origin.vals (o : Origin) : Option ReadVals :=
  match o with
  | .xfer => none
  | .read v => some v
  | .sread v => some v

/-- Whether a context belongs to an SREAD. -/
def Ctx.isSread (c : Ctx) : Bool :=
  match c.origin with
  | .sread _ => true
  | .read _ => false
  | .xfer => false

/-- Whether a context holds the lock of `l`: it is in EXCH on that link (60_exceptions.md R240). -/
def Ctx.holds (l : Link) (c : Ctx) : Bool :=
  match c.phase with
  | .exch (some k) _ => decide (k = l)
  | _ => false

/-- "any SREAD of S is in flight" (45_session_operations.md R195, R209). -/
def State.sreadInFlight (s : State) : Bool := s.contexts.any (·.isSread)

/-! ## The trace port (60_exceptions.md R241 to R243) -/

/-- Whether an answer is traced: only with a trace port, and for a failed exchange only if the platform traces those. -/
def tracesAnswer (a : Answer) : Bool :=
  Config.tracePresent && (decide (a ≠ .failed) || Config.traceFailedExchange)

/-- Trace(bus id, device id, ans) of XFER (R130, R136). -/
def State.traceExchange (link : Option Link) (a : Answer) (s : State) : State :=
  { s with trace := if tracesAnswer a then s.trace ++ [.exchange link a] else s.trace }

/-- Trace(close failure) of CLOSE (R209, R242). -/
def State.traceClose (h : Handle) (a : Answer) (s : State) : State :=
  { s with trace := if Config.tracePresent && decide (a = .failed) then s.trace ++ [.closeFailed h] else s.trace }

/-! ## The exchange (R130 to R135) -/

/-- The frame that an exchange puts on a link: none when the handle is not open, "nothing reaches the link"
(95_test_vectors.md RD9). -/
def sentFrames (link : Option Link) (live : Bool) (cmd : Frame) : List (Link × Frame) :=
  match link, live with
  | some l, true => [(l, cmd)]
  | _, _ => []

/-- Request `c` takes its link's lock and calls Exchange with its Command, in one indivisible step (20_memory.md R61): it is
in EXCH from now on, and on a handle that is open the frame goes out. -/
def State.callExchange (c : Ctx) (link : Option Link) (live : Bool) (s : State) : State :=
  { s.lockLink link with
    contexts := setPhase c.ticket (.exch link live) s.contexts
    calls := s.calls ++ [.exchange c.handle c.cmd]
    wire := s.wire ++ sentFrames link live c.cmd }

/-- Request `c`, in phase WAIT, takes its Acquire step: if the link is free it calls Exchange; if the link is busy it has no
step and nothing changes (R63). -/
def State.acquire (c : Ctx) (s : State) : State :=
  if s.linkBusy (s.linkOf c.handle) then s
  else s.callExchange c (s.linkOf c.handle) (c.usable && s.isOpen c.handle)

/-- What an exchange hears: Bytes or Failed from a transport that could make it, Failed if the handle was not open
(R135, 92_eei_decisions.md D19). Done and Handle answer other calls. -/
def exchangeHears (live : Bool) (a : Answer) : Option Answer :=
  match a, live with
  | .bytes s, true => some (.bytes s)
  | .bytes _, false => some .failed
  | .failed, _ => some .failed
  | .done, _ => none
  | .handle _, _ => none

/-- Where a request goes when its exchange has brought the bytes `s`: XFER returns them, READ and SREAD go on to DECODE
(44_read_orchestrator.md R180). -/
def State.received (c : Ctx) (bs : List Byte) (s : State) : State :=
  match c.origin with
  | .xfer => s.finish c.ticket (.ok (.response bs))
  | .read _ => s.moveTo c.ticket (.decode bs)
  | .sread _ => s.moveTo c.ticket (.decode bs)

/-- The transport answers the exchange of request `t`: Release, Trace, then the checks of XFER, in the order of R130. An
answer that no exchange waits for changes nothing. -/
def State.exchangeAnswered (t : Nat) (a : Answer) (s : State) : State :=
  match s.findCtx t with
  | none => s
  | some c =>
    match c.phase with
    | .exch link live =>
      match exchangeHears live a with
      | none => s
      | some heard =>
        let s' := (s.unlockLink link).traceExchange link heard
        match acceptAnswer heard with
        | .error f => s'.finish t (.fail f)
        | .ok bs => s'.received c bs
    | .wait => s
    | .decode _ => s
    | .scale _ => s

/-- Request `t` takes its next own step (10_state.md R31, 44_read_orchestrator.md R180): Acquire in WAIT, DECODE, SCALE.
In EXCH it is blocked until the transport answers. -/
def State.advance (t : Nat) (s : State) : State :=
  match s.findCtx t with
  | none => s
  | some c =>
    match c.phase with
    | .wait => s.acquire c
    | .exch _ _ => s
    | .decode rsp =>
      match decodeUnit rsp with
      | .error f => s.finish t (.fail f)
      | .ok code => s.moveTo t (.scale code)
    | .scale code =>
      match c.origin.vals with
      | some v => s.finish t (.ok (.reading (scaleUnit code v.vref)))
      | none => s

/-- A request whose Command is built: its context waits for the link. -/
def State.enqueue (origin : Origin) (cmd : Frame) (h : Handle) (usable : Bool) (s : State) : State :=
  State.nextRequest { s with contexts := s.contexts ++ [Ctx.mk s.nextTicket origin cmd h usable .wait] }

/-- If the next thing the outside does is to answer request `t`, the request runs to its end in this step, as one atomic
step at its exchange (44_read_orchestrator.md R188): the four steps are the ones its context would take one by one.
Otherwise it stays where it is. -/
def State.runIfAnswered (t : Nat) (s : State) : State :=
  match s.inbox with
  | .move (.answer t' a) :: rest =>
    if t' = t then
      State.advance t (State.advance t (State.exchangeAnswered t a (State.advance t { s with inbox := rest })))
    else s
  | _ => s

/-- A request for an exchange is issued. -/
def State.startExchange (origin : Origin) (cmd : Frame) (h : Handle) (usable : Bool) (s : State) : State :=
  (s.enqueue origin cmd h usable).runIfAnswered s.nextTicket

/-- A reading request is issued: BUILD, which may end it at once, then the exchange (R180, R181). -/
def State.startRead (origin : Origin) (v : ReadVals) (h : Handle) (usable : Bool) (s : State) : State :=
  match encodeUnit v.chip v.ch with
  | .error f => s.replyNow (.fail f)
  | .ok cmd => s.startExchange origin cmd h usable

/-! ## The requests that a unit answers by itself -/

/-- An ENCODE request (R110): it touches nothing but its reply. -/
def State.encodeRequest (chip : ChipModel) (ch : Int) (s : State) : State :=
  match encodeUnit chip ch with
  | .error f => s.replyNow (.fail f)
  | .ok cmd => s.replyNow (.ok (.command cmd))

/-- A DECODE request (R145): it touches nothing but its reply. -/
def State.decodeRequest (rsp : List Byte) (s : State) : State :=
  match decodeUnit rsp with
  | .error f => s.replyNow (.fail f)
  | .ok code => s.replyNow (.ok (.code code))

/-! ## The transport's answers to CONFIGURE and CLOSE -/

/-- The registers that a CONFIGURE writes (45_session_operations.md R195). -/
def Opening.regs (o : Opening) (h : Handle) : Regs :=
  { chip := o.chip, vref := o.vref, chDefault := o.chDefault, clockHz := o.clockHz, spiMode := o.spiMode, handle := h }

/-- The CONFIGURE of ticket `t` is no more in flight. -/
def State.endOpening (t : Nat) (s : State) : State :=
  { s with opening := s.opening.filter fun o => decide (o.ticket ≠ t) }

/-- The transport answers the Open of a CONFIGURE (R195, R200, R202): Handle(h) writes all seven registers together,
Failed leaves the slot as it was. The conditions of R201 are looked at again here, where the registers are written, so
that no open session is overwritten (R28) and no SREAD sees the registers change under it (notes/assumptions/9.md). -/
def State.openAnswered (o : Opening) (a : Answer) (s : State) : Outcome :=
  match a with
  | .handle h =>
    if s.session.sstate = .opened then .refused .configureWhileOpen
    else if s.sreadInFlight then .refused .sreadInFlight
    else
      .next (State.deliver o.ticket (.ok .none)
        { State.openHandle h Config.ownLink (s.endOpening o.ticket) with session := .opened (o.regs h) })
  | .failed => .next ((s.endOpening o.ticket).deliver o.ticket (.fail (.transportError .openFailed)))
  | .bytes _ => .next s
  | .done => .next s

/-- The session ends with what Close answered: whatever it is, SSTATE becomes CLOSED and CLOSE returns (R211). The handle
is stale from then on (10_state.md R27). -/
def State.endSession (t : Nat) (r : Regs) (a : Answer) (s : State) : State :=
  State.deliver t (.ok .none)
    (State.traceClose r.handle a (State.releaseHandle r.handle { s with session := .closed r, closing := none }))

/-- The transport answers the Close of the CLOSE of ticket `t` (R209, R211). An SREAD issued since, and still in flight,
would have its handle released under it: refused (R212, U17). -/
def State.closeAnswered (t : Nat) (a : Answer) (s : State) : Outcome :=
  match s.session with
  | .opened r =>
    match a with
    | .done => if s.sreadInFlight then .refused .sreadInFlight else .next (s.endSession t r a)
    | .failed => if s.sreadInFlight then .refused .sreadInFlight else .next (s.endSession t r a)
    | .bytes _ => .next s
    | .handle _ => .next s
  | .closed _ => .next s
  | .unconfigured => .next s

end Sys2Proof.Machine
end

