-- ==== Sys2Proof/Machine/Decoder.lean ====
section
/-! DEFINITION. The response decoder and the voltage scaler: DECODE, the RawResponse row, SCALE (42_response_decoder.md,
43_voltage_scaler.md). -/

namespace Sys2Proof.Machine

/-- DECODE rsp (R145). -/
def execDecode (rsp : List Byte) (s : State) : Outcome := .next (s.decodeRequest rsp)

/-- RSP24: DECODE of the frame with ignored bits `x` and code bits `d` (30_encoding.md R87, R88). -/
def execRsp24 (x : BitVec 14) (d : BitVec 10) (s : State) : Outcome :=
  .next (s.decodeRequest (frameOfWord (rspWord x d)).bytes)

/-- SCALE code vref (R160). A reference voltage that is not positive is outside the operand type and refused (R166). -/
def execScale (code : Code) (vref : NumT) (s : State) : Outcome :=
  if vref ≤ 0 then .refused .nonPositiveReference else .next (s.replyNow (.ok (.reading (scaleUnit code vref))))

end Sys2Proof.Machine
end

