-- ==== Sys2Proof/Machine/Encoder.lean ====
section
/-! DEFINITION. The command encoder: ENCODE and the seventeen Command-frame rows (40_command_encoder.md, 30_encoding.md
R89). -/

namespace Sys2Proof.Machine

/-- ENCODE chip ch (R110). -/
def execEncode (chip : ChipModel) (ch : Int) (s : State) : Outcome := .next (s.encodeRequest chip ch)

/-- CMD24.MCP3002, the frame of channel `c` (R83). -/
def execCmd24Mcp3002 (c : BitVec 1) (s : State) : Outcome := .next (s.encodeRequest .mcp3002 c.toNat)

/-- CMD24.MCP3004, the frame of channel `cc` (R84). -/
def execCmd24Mcp3004 (cc : BitVec 2) (s : State) : Outcome := .next (s.encodeRequest .mcp3004 cc.toNat)

/-- CMD24.MCP3008, the frame of channel `ccc` (R84). -/
def execCmd24Mcp3008 (ccc : BitVec 3) (s : State) : Outcome := .next (s.encodeRequest .mcp3008 ccc.toNat)

/-- CMD24.MCP3002.CH0 (R89). -/
def execCmd24Mcp3002Ch0 (s : State) : Outcome := .next (s.encodeRequest .mcp3002 0)

/-- CMD24.MCP3002.CH1 (R89). -/
def execCmd24Mcp3002Ch1 (s : State) : Outcome := .next (s.encodeRequest .mcp3002 1)

/-- CMD24.MCP3004.CH0 (R89). -/
def execCmd24Mcp3004Ch0 (s : State) : Outcome := .next (s.encodeRequest .mcp3004 0)

/-- CMD24.MCP3004.CH1 (R89). -/
def execCmd24Mcp3004Ch1 (s : State) : Outcome := .next (s.encodeRequest .mcp3004 1)

/-- CMD24.MCP3004.CH2 (R89). -/
def execCmd24Mcp3004Ch2 (s : State) : Outcome := .next (s.encodeRequest .mcp3004 2)

/-- CMD24.MCP3004.CH3 (R89). -/
def execCmd24Mcp3004Ch3 (s : State) : Outcome := .next (s.encodeRequest .mcp3004 3)

/-- CMD24.MCP3008.CH0 (R89). -/
def execCmd24Mcp3008Ch0 (s : State) : Outcome := .next (s.encodeRequest .mcp3008 0)

/-- CMD24.MCP3008.CH1 (R89). -/
def execCmd24Mcp3008Ch1 (s : State) : Outcome := .next (s.encodeRequest .mcp3008 1)

/-- CMD24.MCP3008.CH2 (R89). -/
def execCmd24Mcp3008Ch2 (s : State) : Outcome := .next (s.encodeRequest .mcp3008 2)

/-- CMD24.MCP3008.CH3 (R89). -/
def execCmd24Mcp3008Ch3 (s : State) : Outcome := .next (s.encodeRequest .mcp3008 3)

/-- CMD24.MCP3008.CH4 (R89). -/
def execCmd24Mcp3008Ch4 (s : State) : Outcome := .next (s.encodeRequest .mcp3008 4)

/-- CMD24.MCP3008.CH5 (R89). -/
def execCmd24Mcp3008Ch5 (s : State) : Outcome := .next (s.encodeRequest .mcp3008 5)

/-- CMD24.MCP3008.CH6 (R89). -/
def execCmd24Mcp3008Ch6 (s : State) : Outcome := .next (s.encodeRequest .mcp3008 6)

/-- CMD24.MCP3008.CH7 (R89). -/
def execCmd24Mcp3008Ch7 (s : State) : Outcome := .next (s.encodeRequest .mcp3008 7)

end Sys2Proof.Machine
end

