-- ==== Sys2Proof/Machine/Executor.lean ====
section
/-! DEFINITION. The transaction executor and the read sequencer: XFER and READ (41_transaction_executor.md,
44_read_orchestrator.md). -/

namespace Sys2Proof.Machine

/-- XFER cmd handle (R130): the Command is sent as it is, no check. DESIGN CHOICE (notes/assumptions/19.md): nor is it checked
whose handle it is, so a host may name the handle of the OPEN session, of which 60_exceptions.md R233 says that no caller touches
it but through SREAD and CLOSE. -/
def execXfer (cmd : Frame) (h : Handle) (s : State) : Outcome := .next (s.startExchange .xfer cmd h true)

/-- READ chip ch vref handle (R180). READ checks no reference voltage: one that is not positive is refused (R186).
DESIGN CHOICE (notes/assumptions/19.md): the handle may be the one of the OPEN session, as for XFER. -/
def execRead (chip : ChipModel) (ch : Int) (vref : NumT) (h : Handle) (s : State) : Outcome :=
  if vref ≤ 0 then .refused .nonPositiveReference
  else .next (s.startRead (.read ⟨ch, chip, vref⟩) ⟨ch, chip, vref⟩ h true)

end Sys2Proof.Machine
end

