-- ==== Sys2Proof/Machine/Session.lean ====
section
/-! DEFINITION. The session operations: CONFIGURE, SREAD and CLOSE (45_session_operations.md). -/

namespace Sys2Proof.Machine

/-- The CONFIGURE calls Open (R200): it is in flight until the transport answers. -/
def State.startOpen (o : Opening) (s : State) : State :=
  State.nextRequest
    (State.logCall (.open Config.linkBusId Config.linkDeviceId o.clockHz o.spiMode) { s with opening := s.opening ++ [o] })

/-- If the next thing the outside does is to answer this Open, the CONFIGURE ends in this step. -/
def State.openIfAnswered (o : Opening) (s : State) : Outcome :=
  match s.inbox with
  | .move (.answer t a) :: rest => if t = o.ticket then State.openAnswered o a { s with inbox := rest } else .next s
  | _ => .next s

/-- CONFIGURE (R195): the refusals of R201, the three checks in the order of R228, then Open. The chip is the 2-bit
field of 30_encoding.md R93, whose value 0b11 is the bad chip model (R197). -/
def execConfigure (chip : BitVec 2) (chDefault clockHz : Int) (vref : Option NumT) (mode : SpiMode) (s : State) :
    Outcome :=
  if s.session.sstate = .opened then .refused .configureWhileOpen
  else if s.sreadInFlight then .refused .sreadInFlight
  else
    match chipOfField chip with
    | none => .next (s.replyNow (.fail (.invalidConfiguration .chipModel)))
    | some c =>
      if configVref vref ≤ 0 then .next (s.replyNow (.fail (.invalidConfiguration .referenceVoltage)))
      else if clockHz ≤ 0 then .next (s.replyNow (.fail (.invalidConfiguration .clockHz)))
      else
        (s.startOpen ⟨s.nextTicket, c, configVref vref, chDefault, clockHz, mode⟩).openIfAnswered
          ⟨s.nextTicket, c, configVref vref, chDefault, clockHz, mode⟩

/-- SREAD (R203): READ on the session's values. On a CLOSED session it runs as written and its exchange can only answer
Failed (R204). -/
def execSread (ch : Option Int) (s : State) : Outcome :=
  match s.session with
  | .unconfigured => .refused .noSession
  | .opened r =>
    .next (s.startRead (.sread ⟨sreadChannel ch r, r.chip, r.vref⟩) ⟨sreadChannel ch r, r.chip, r.vref⟩ r.handle true)
  | .closed r =>
    .next (s.startRead (.sread ⟨sreadChannel ch r, r.chip, r.vref⟩) ⟨sreadChannel ch r, r.chip, r.vref⟩ r.handle false)

/-- The CLOSE calls Close (R209): it is in flight until the transport answers. -/
def State.startClose (r : Regs) (s : State) : State :=
  State.nextRequest (State.logCall (.close r.handle) { s with closing := some s.nextTicket })

/-- If the next thing the outside does is to answer this Close, the CLOSE ends in this step. -/
def State.closeIfAnswered (t : Nat) (s : State) : Outcome :=
  match s.inbox with
  | .move (.answer t' a) :: rest =>
    if t' = t then State.closeAnswered t a { s with inbox := rest } else .next s
  | _ => .next s

/-- CLOSE (R209). In CLOSED it does nothing and succeeds (R210); in OPEN it calls Close once. -/
def execClose (s : State) : Outcome :=
  match s.session with
  | .unconfigured => .refused .noSession
  | .closed _ => .next (s.replyNow (.ok .none))
  | .opened r =>
    if s.sreadInFlight then .refused .sreadInFlight
    else if s.closing.isSome then .refused .closeInFlight
    else (s.startClose r).closeIfAnswered s.nextTicket

end Sys2Proof.Machine
end

