-- ==== Sys2Proof/Machine/Dispatch.lean ====
section
/-! DEFINITION. The meaning of every instruction, one arm per constructor. -/

namespace Sys2Proof.Machine

def exec (i : Instr) (s : State) : Host.Outcome State Fault Refusal :=
  match i with
  -- the session operations (45_session_operations.md)
  | .configure chip chDefault clockHz vref mode => Sys2Proof.Machine.execConfigure chip chDefault clockHz vref mode s
  | .sread ch => Sys2Proof.Machine.execSread ch s
  | .close => Sys2Proof.Machine.execClose s
  -- the read sequencer and the units (40_command_encoder.md to 44_read_orchestrator.md)
  | .read chip ch vref handle => Sys2Proof.Machine.execRead chip ch vref handle s
  | .encode chip ch => Sys2Proof.Machine.execEncode chip ch s
  | .xfer cmd handle => Sys2Proof.Machine.execXfer cmd handle s
  | .decode rsp => Sys2Proof.Machine.execDecode rsp s
  | .scale code vref => Sys2Proof.Machine.execScale code vref s
  -- the Command frames (30_encoding.md R89)
  | .cmd24Mcp3002 c => Sys2Proof.Machine.execCmd24Mcp3002 c s
  | .cmd24Mcp3004 cc => Sys2Proof.Machine.execCmd24Mcp3004 cc s
  | .cmd24Mcp3008 ccc => Sys2Proof.Machine.execCmd24Mcp3008 ccc s
  | .cmd24Mcp3002Ch0 => Sys2Proof.Machine.execCmd24Mcp3002Ch0 s
  | .cmd24Mcp3002Ch1 => Sys2Proof.Machine.execCmd24Mcp3002Ch1 s
  | .cmd24Mcp3004Ch0 => Sys2Proof.Machine.execCmd24Mcp3004Ch0 s
  | .cmd24Mcp3004Ch1 => Sys2Proof.Machine.execCmd24Mcp3004Ch1 s
  | .cmd24Mcp3004Ch2 => Sys2Proof.Machine.execCmd24Mcp3004Ch2 s
  | .cmd24Mcp3004Ch3 => Sys2Proof.Machine.execCmd24Mcp3004Ch3 s
  | .cmd24Mcp3008Ch0 => Sys2Proof.Machine.execCmd24Mcp3008Ch0 s
  | .cmd24Mcp3008Ch1 => Sys2Proof.Machine.execCmd24Mcp3008Ch1 s
  | .cmd24Mcp3008Ch2 => Sys2Proof.Machine.execCmd24Mcp3008Ch2 s
  | .cmd24Mcp3008Ch3 => Sys2Proof.Machine.execCmd24Mcp3008Ch3 s
  | .cmd24Mcp3008Ch4 => Sys2Proof.Machine.execCmd24Mcp3008Ch4 s
  | .cmd24Mcp3008Ch5 => Sys2Proof.Machine.execCmd24Mcp3008Ch5 s
  | .cmd24Mcp3008Ch6 => Sys2Proof.Machine.execCmd24Mcp3008Ch6 s
  | .cmd24Mcp3008Ch7 => Sys2Proof.Machine.execCmd24Mcp3008Ch7 s
  -- the RawResponse frame (30_encoding.md R87)
  | .rsp24 x d => Sys2Proof.Machine.execRsp24 x d s

end Sys2Proof.Machine
end

