-- ==== Sys2Proof/Machine/Outside.lean ====
section
/-! DEFINITION. The moves of the other agents (00_scope.md R12): a context in flight takes its next step, the transport
answers a call, another user of the transport opens, closes, takes or frees. -/

namespace Sys2Proof.Machine

/-- Whether a handle is the one an OPEN session holds: no other user touches it (60_exceptions.md R233). -/
def State.ownsHandle (s : State) (h : Handle) : Bool :=
  match s.session with
  | .opened r => decide (r.handle = h)
  | .closed _ => false
  | .unconfigured => false

/-- The transport answers the call of request `t`: an Open, a Close or an Exchange. -/
def answerMove (t : Nat) (a : Answer) (s : State) : Outcome :=
  if s.closing = some t then s.closeAnswered t a
  else
    match s.opening.find? fun o => decide (o.ticket = t) with
    | some o => s.openAnswered o a
    | none => .next (s.exchangeAnswered t a)

/-- Another user opens a handle of its own on a link (95_test_vectors.md P6). -/
def outsideOpenMove (h : Handle) (link : Link) (s : State) : Outcome :=
  if s.ownsHandle h then .next s else .next (s.openHandle h link)

/-- Another user closes a handle of its own. -/
def outsideCloseMove (h : Handle) (s : State) : Outcome :=
  if s.ownsHandle h then .next s else .next (s.releaseHandle h)

/-- Another user acquires a free link; on a busy one it has no step (93_implementation_defined.md U23). -/
def outsideTakeMove (l : Link) (s : State) : Outcome :=
  if l ∈ s.busy then .next s
  else .next { s with busy := takeLink l s.busy, outside := takeLink l s.outside }

/-- Another user releases a link that it holds. -/
def outsideFreeMove (l : Link) (s : State) : Outcome :=
  if l ∈ s.outside then .next { s with busy := s.busy.erase l, outside := s.outside.erase l } else .next s

/-- One move of another agent. A move that its agent cannot make in this state changes nothing. -/
def perform (m : Move) (s : State) : Outcome :=
  match m with
  | .advance t => .next (s.advance t)
  | .answer t a => answerMove t a s
  | .outsideOpen h l => outsideOpenMove h l s
  | .outsideClose h => outsideCloseMove h s
  | .outsideTake l => outsideTakeMove l s
  | .outsideFree l => outsideFreeMove l s

end Sys2Proof.Machine
end

