-- ==== Sys2Proof/Machine/Step.lean ====
section
/-! DEFINITION. One step: the next event of the outside happens. -/

namespace Sys2Proof.Machine

/-- A host caller issues a request: it is decoded and runs; one that names no instruction is refused. -/
def issue (w : ReqWord) (s : State) : Host.Outcome State Fault Refusal :=
  match decode w with
  | .ok i => exec i s
  | .error why => .refused (.badRequest why)

/-- One step. The block has no program counter and fetches nothing (10_state.md R31, 20_memory.md R64): requests arrive
from the host. With nothing to do it does nothing (70_reset_and_hazards.md R262). -/
def step (s : State) : Host.Outcome State Fault Refusal :=
  match s.inbox with
  | [] => .next s
  | .request w :: rest => issue w { s with inbox := rest }
  | .move m :: rest => perform m { s with inbox := rest }

/-- `s` with the request of an opcode-table word as the next event, before all others (notes/assumptions/2.md, 3.md). Bits
that are no word of the table become a request that the decoder rejects. -/
def State.withFetchWord (s : State) (nbits w : Nat) : State :=
  { s with inbox := .request ((tableRequest nbits w).getD (.hostop 0#3 [])) :: s.inbox }

end Sys2Proof.Machine
end

