-- ==== Sys2Proof/WellFormed.lean ====
section
/-! DEFINITION. Which terms of Instr are requests whose operands lie in the operand types of 30_encoding.md R95. -/

namespace Sys2Proof

/-- The operands of `i` lie in their types. Every other restriction is in the types of the constructors (a Command has
three bytes, a code ten bits, a ChipModel three values); the reference voltage of READ and SCALE is "strictly greater
than zero" (44_read_orchestrator.md R186, 43_voltage_scaler.md R166). CONFIGURE takes any operand: it is the one that
checks them (45_session_operations.md R197 to R199). -/
def Instr.wf (i : Instr) : Bool :=
  match i with
  | .read _ _ vref _ => decide (0 < vref)
  | .scale _ vref => decide (0 < vref)
  | .configure _ _ _ _ _ | .sread _ | .close | .encode _ _ | .xfer _ _ | .decode _ => true
  | .cmd24Mcp3002 _ | .cmd24Mcp3004 _ | .cmd24Mcp3008 _ => true
  | .cmd24Mcp3002Ch0 | .cmd24Mcp3002Ch1 => true
  | .cmd24Mcp3004Ch0 | .cmd24Mcp3004Ch1 | .cmd24Mcp3004Ch2 | .cmd24Mcp3004Ch3 => true
  | .cmd24Mcp3008Ch0 | .cmd24Mcp3008Ch1 | .cmd24Mcp3008Ch2 | .cmd24Mcp3008Ch3 => true
  | .cmd24Mcp3008Ch4 | .cmd24Mcp3008Ch5 | .cmd24Mcp3008Ch6 | .cmd24Mcp3008Ch7 => true
  | .rsp24 _ _ => true

end Sys2Proof
end

