-- ==== Sys2Proof/Safety.lean ====
section
/-! DEFINITION. The words that claims are stated in: the invariant of the machine (10_state.md R38, 60_exceptions.md R240),
the runs from reset, and the next states that the rules give, written out field by field. -/

namespace Sys2Proof.Machine

/-! ## The invariant -/

/-- How often request `t` is in flight or answered. -/
def State.ticketCount (s : State) (t : Nat) : Nat :=
  s.contexts.countP (fun c => decide (c.ticket = t)) + s.opening.countP (fun o => decide (o.ticket = t))
    + s.closing.toList.count t + s.replies.countP (fun r => decide (r.1 = t))

/-- How many agents hold the lock of `l`: the request contexts in EXCH on it, and another user of the transport. -/
def State.holders (s : State) (l : Link) : Nat :=
  s.contexts.countP (fun c => c.holds l) + s.outside.count l

/-- R38 (b) to (d) and R204 for one request context: a reading request holds a legal channel, a positive reference voltage
and the Command of its chip and channel; RSP has three bytes; an XFER neither decodes nor scales; and a request on a
released handle never gets past its exchange. -/
structure Ctx.Good (c : Ctx) : Prop where
  vals : ∀ v, c.origin.vals = some v →
    channelLegal v.chip v.ch ∧ 0 < v.vref ∧ c.cmd = commandFrame v.chip v.ch.toNat
  decode : ∀ rsp, c.phase = .decode rsp → rsp.length = 3 ∧ c.origin ≠ .xfer ∧ c.usable = true
  scale : ∀ code, c.phase = .scale code → c.origin ≠ .xfer ∧ c.usable = true
  exch : ∀ link live, c.phase = .exch link live → live = true → c.usable = true

/-- R38 (a) and R27: the registers of a slot that has them, and the handle of an OPEN one. -/
def State.SessionGood (s : State) : Prop :=
  match s.session with
  | .unconfigured => True
  | .opened r => 0 < r.vref ∧ 0 < r.clockHz ∧ findHandle r.handle s.handles = some ⟨Config.ownLink, true⟩
  | .closed r => 0 < r.vref ∧ 0 < r.clockHz

/-- What every step keeps.
`tickets`: every accepted request is in exactly one place, in flight or answered once, and no other name is in use.
`exclusive`: BUSY of a link is 1 exactly when one agent holds the link, and never two do (R240).
`busySorted`, `outsideSorted`, `handlesSorted`: the sets and the table keep their canonical form.
`contexts`, `openings`, `sessionGood`: R38.
`closingOpen`: only an OPEN session is being closed. -/
structure State.Inv (s : State) : Prop where
  tickets : ∀ t, (t < s.nextTicket → s.ticketCount t = 1) ∧ (s.nextTicket ≤ t → s.ticketCount t = 0)
  exclusive : ∀ l, (l ∈ s.busy → s.holders l = 1) ∧ (l ∉ s.busy → s.holders l = 0)
  busySorted : s.busy.Pairwise (· < ·)
  outsideSorted : s.outside.Pairwise (· < ·)
  handlesSorted : (s.handles.map Prod.fst).Pairwise (· < ·)
  contexts : ∀ c ∈ s.contexts, c.Good
  openings : ∀ o ∈ s.opening, 0 < o.vref ∧ 0 < o.clockHz
  sessionGood : s.SessionGood
  closingOpen : s.closing ≠ none → s.session.sstate = .opened

/-- The names of the requests in flight are names already given: the next request has a name of its own. -/
abbrev State.Fresh (s : State) : Prop :=
  (∀ c ∈ s.contexts, c.ticket < s.nextTicket) ∧ (∀ o ∈ s.opening, o.ticket < s.nextTicket)

/-- `s` is reached from reset when the outside does `events`, one after the other (70_reset_and_hazards.md R261). -/
def Reached (events : List Event) (s : State) : Prop :=
  ∃ k, Sys2Proof.core.run k { State.reset with inbox := events } = .next s

/-! ## The next states that the rules give -/

/-- A request is accepted and answered, and nothing else changes. -/
def State.replied (r : Reply) (s : State) : State :=
  { s with nextTicket := s.nextTicket + 1, replies := s.replies ++ [(s.nextTicket, r)] }

/-- A request has made its one exchange of `cmd` on handle `h`, has heard `heard`, and is answered; the answer is used up
(`rest` is what the outside does then). The link is `link`; `sent` is what went out on it. BUSY is as before. -/
def State.exchanged (h : Handle) (cmd : Frame) (link : Option Link) (sent : List (Link × Frame)) (heard : Answer)
    (rest : List Event) (r : Reply) (s : State) : State :=
  { s with
    inbox := rest
    nextTicket := s.nextTicket + 1
    replies := s.replies ++ [(s.nextTicket, r)]
    calls := s.calls ++ [.exchange h cmd]
    wire := s.wire ++ sent
    trace := if tracesAnswer heard then s.trace ++ [.exchange link heard] else s.trace }

/-- A request waits for the link, its Command built; nothing else changes. -/
def State.waiting (origin : Origin) (cmd : Frame) (h : Handle) (usable : Bool) (s : State) : State :=
  { s with
    nextTicket := s.nextTicket + 1
    contexts := s.contexts ++ [Ctx.mk s.nextTicket origin cmd h usable .wait] }

/-- What XFER delivers when its exchange hears `a` (41_transaction_executor.md R130). -/
def xferReply (a : Answer) : Reply :=
  match a with
  | .bytes [b0, b1, b2] => .ok (.response [b0, b1, b2])
  | .bytes s => .fail (.transportError (.lengthMismatch s.length))
  | _ => .fail (.transportError .exchangeFailed)

/-- What READ delivers when its exchange hears `a` (44_read_orchestrator.md R180). -/
def readReply (vref : NumT) (a : Answer) : Reply :=
  match a with
  | .bytes [_, b1, b2] => .ok (.reading (((256 * (b1.toNat % 4) + b2.toNat : Nat) : NumT) * vref / 1024))
  | .bytes s => .fail (.transportError (.lengthMismatch s.length))
  | _ => .fail (.transportError .exchangeFailed)

/-- An answer that an exchange may hear (R133): bytes of any length, or Failed. -/
def Answer.ofExchange (a : Answer) : Prop := a = .failed ∨ ∃ s, a = .bytes s

/-- The state without the logs of what went out: replies, calls, frames, trace records. -/
def State.withoutLogs (s : State) : State := { s with replies := [], calls := [], wire := [], trace := [] }

/-- A context with SREAD written as the READ it is (30_encoding.md R99). -/
def Ctx.asRead (c : Ctx) : Ctx :=
  match c.origin with
  | .sread v => { c with origin := .read v }
  | .read _ => c
  | .xfer => c

/-- Where a phase stands in the fixed order of 10_state.md R31. -/
def Phase.rank (p : Phase) : Nat :=
  match p with
  | .wait => 1
  | .exch _ _ => 2
  | .decode _ => 3
  | .scale _ => 4

end Sys2Proof.Machine
end

