-- ==== Sys2Proof/Certificates/Slice0/Obligations.lean ====
section
/-! DEFINITION. The statements for the provers, one `def Obligations.<Name> : Prop` each; OBLIGATIONS.json says of each what
it states and which rule it rests on. -/

open Sys2Proof Sys2Proof.Machine

/-! ## ENCODE and the Command frames -/

/-- R111, R112, R114, R115: ENCODE of a channel in the chip's range (0 to 1, 0 to 3, 0 to 7) answers the three bytes, with
byte 1 by the two formulas of R115 (2); every other integer is answered with InvalidChannel, which names the channel as
given and the chip, and no Command. Nothing else changes. -/
def Obligations.EncodeBuildsTheCommandOrRejectsTheChannel : Prop :=
  ∀ (chip : ChipModel) (ch : Int) (s : State),
    let legal : Prop := 0 ≤ ch ∧ ch ≤ (match chip with | .mcp3002 => 1 | .mcp3004 => 3 | .mcp3008 => 7)
    let byte1 : Byte :=
      match chip with
      | .mcp3002 => BitVec.ofNat 8 ((0b10 ||| ch.toNat) <<< 6)
      | .mcp3004 => BitVec.ofNat 8 ((0b1000 ||| ch.toNat) <<< 4)
      | .mcp3008 => BitVec.ofNat 8 ((0b1000 ||| ch.toNat) <<< 4)
    (legal → exec (.encode chip ch) s = .next (s.replied (.ok (.command ⟨0b00000001#8, byte1, 0x00#8⟩)))) ∧
    (¬ legal → exec (.encode chip ch) s = .next (s.replied (.fail (.invalidChannel ch chip))))

/-- R113, R86: for a legal channel no bit of CMD[1] is lost: its value is 128 + 64 * ch for the MCP3002 and 128 + 16 * ch for
the other two, between 128 and 240. -/
def Obligations.ControlByteLosesNoBit : Prop :=
  ∀ (chip : ChipModel) (ch : Int), channelLegal chip ch →
    ((controlByte chip ch.toNat).toNat : Int) = (match chip with | .mcp3002 => 128 + 64 * ch | _ => 128 + 16 * ch) ∧
    128 ≤ (controlByte chip ch.toNat).toNat ∧ (controlByte chip ch.toNat).toNat ≤ 240

/-- R116, the corner cases. -/
def Obligations.EncodeCornerCases : Prop :=
  ∀ s : State,
    (∀ chip, exec (.encode chip 0) s = .next (s.replied (.ok (.command ⟨0x01#8, 0x80#8, 0x00#8⟩)))) ∧
    exec (.encode .mcp3002 1) s = .next (s.replied (.ok (.command ⟨0x01#8, 0xC0#8, 0x00#8⟩))) ∧
    exec (.encode .mcp3004 3) s = .next (s.replied (.ok (.command ⟨0x01#8, 0xB0#8, 0x00#8⟩))) ∧
    exec (.encode .mcp3008 7) s = .next (s.replied (.ok (.command ⟨0x01#8, 0xF0#8, 0x00#8⟩))) ∧
    (∀ p ∈ ([(.mcp3002, 2), (.mcp3004, 4), (.mcp3008, 8), (.mcp3002, -1), (.mcp3004, -1), (.mcp3008, -1),
        (.mcp3002, 256), (.mcp3004, 256), (.mcp3008, 256), (.mcp3004, 5), (.mcp3004, 6), (.mcp3004, 7)] :
        List (ChipModel × Int)),
      exec (.encode p.1 p.2) s = .next (s.replied (.fail (.invalidChannel p.2 p.1)))) ∧
    (∀ ch ∈ ([4, 5, 6, 7] : List Int), ∃ cmd, exec (.encode .mcp3008 ch) s = .next (s.replied (.ok (.command cmd))))

/-- R89: each exact Command-frame row of the opcode table answers the frame of its row, and ENCODE of the row's chip and
channel answers the same; ENCODE never answers another frame; and for a fixed chip the frame determines the channel. -/
def Obligations.CommandFrameTable : Prop :=
  (∀ row ∈ ([(.cmd24Mcp3002Ch0, .mcp3002, 0, 0x018000#24), (.cmd24Mcp3002Ch1, .mcp3002, 1, 0x01C000#24),
      (.cmd24Mcp3004Ch0, .mcp3004, 0, 0x018000#24), (.cmd24Mcp3004Ch1, .mcp3004, 1, 0x019000#24),
      (.cmd24Mcp3004Ch2, .mcp3004, 2, 0x01A000#24), (.cmd24Mcp3004Ch3, .mcp3004, 3, 0x01B000#24),
      (.cmd24Mcp3008Ch0, .mcp3008, 0, 0x018000#24), (.cmd24Mcp3008Ch1, .mcp3008, 1, 0x019000#24),
      (.cmd24Mcp3008Ch2, .mcp3008, 2, 0x01A000#24), (.cmd24Mcp3008Ch3, .mcp3008, 3, 0x01B000#24),
      (.cmd24Mcp3008Ch4, .mcp3008, 4, 0x01C000#24), (.cmd24Mcp3008Ch5, .mcp3008, 5, 0x01D000#24),
      (.cmd24Mcp3008Ch6, .mcp3008, 6, 0x01E000#24), (.cmd24Mcp3008Ch7, .mcp3008, 7, 0x01F000#24)] :
      List (Instr × ChipModel × Int × BitVec 24)), ∀ s : State,
    exec row.1 s = .next (s.replied (.ok (.command (frameOfWord row.2.2.2)))) ∧
    exec (.encode row.2.1 row.2.2.1) s = exec row.1 s) ∧
  (∀ (chip : ChipModel) (ch : Int) (s : State) (cmd : Frame),
    exec (.encode chip ch) s = .next (s.replied (.ok (.command cmd))) →
    cmd.word ∈ [0x018000#24, 0x019000#24, 0x01A000#24, 0x01B000#24, 0x01C000#24, 0x01D000#24, 0x01E000#24, 0x01F000#24]) ∧
  (∀ (chip : ChipModel) (ch ch' : Int) (s : State) (cmd : Frame),
    exec (.encode chip ch) s = .next (s.replied (.ok (.command cmd))) →
    exec (.encode chip ch') s = .next (s.replied (.ok (.command cmd))) → ch = ch')

/-- R83, R84: a pattern row of the opcode table answers the frame of its pattern, `00000001 1c000000 00000000`,
`00000001 10cc0000 00000000` or `00000001 1ccc0000 00000000`, which is the frame of the channel in its channel bits. -/
def Obligations.PatternRowsAnswerTheirFrame : Prop :=
  ∀ s : State,
    (∀ c : BitVec 1,
      exec (.cmd24Mcp3002 c) s = .next (s.replied (.ok (.command ⟨0x01#8, 1#1 ++ c ++ 0#6, 0x00#8⟩))) ∧
      exec (.encode .mcp3002 c.toNat) s = exec (.cmd24Mcp3002 c) s) ∧
    (∀ cc : BitVec 2,
      exec (.cmd24Mcp3004 cc) s = .next (s.replied (.ok (.command ⟨0x01#8, 0b10#2 ++ cc ++ 0#4, 0x00#8⟩))) ∧
      exec (.encode .mcp3004 cc.toNat) s = exec (.cmd24Mcp3004 cc) s) ∧
    (∀ ccc : BitVec 3,
      exec (.cmd24Mcp3008 ccc) s = .next (s.replied (.ok (.command ⟨0x01#8, 1#1 ++ ccc ++ 0#4, 0x00#8⟩))) ∧
      exec (.encode .mcp3008 ccc.toNat) s = exec (.cmd24Mcp3008 ccc) s)

/-! ## DECODE and the RawResponse frame -/

/-- R147: DECODE of three bytes answers the code of the formula, which is 256 * (rsp[1] mod 4) + rsp[2] and at most 1023;
nothing else changes. Element 0 and bits 7:2 of element 1 do not matter. -/
def Obligations.DecodeReassemblesTheCode : Prop :=
  ∀ (x b1 b2 : Byte) (s : State), ∃ c : Code,
    exec (.decode [x, b1, b2]) s = .next (s.replied (.ok (.code c))) ∧
    c.toNat = ((b1.toNat &&& 0b11) <<< 8) ||| b2.toNat ∧
    c.toNat = 256 * (b1.toNat % 4) + b2.toNat ∧ c.toNat ≤ 1023

/-- R146: DECODE of a byte sequence of any other length answers MalformedResponse with the count, and no code. -/
def Obligations.DecodeRejectsEveryOtherLength : Prop :=
  ∀ (rsp : List Byte) (s : State), rsp.length ≠ 3 →
    exec (.decode rsp) s = .next (s.replied (.fail (.malformedResponse rsp.length)))

/-- R148, R150: DECODE is onto 0..1023, whatever element 0 is, and two responses that differ only in element 0 and in bits
7:2 of element 1 give the same code. -/
def Obligations.DecodeIsOntoAndIgnoresFourteenBits : Prop :=
  (∀ (c : Code) (x : Byte) (s : State),
    exec (.decode [x, BitVec.ofNat 8 (c.toNat >>> 8), BitVec.ofNat 8 (c.toNat &&& 255)]) s
      = .next (s.replied (.ok (.code c)))) ∧
  (∀ (x x' b1 b1' b2 : Byte) (s : State), b1.extractLsb' 0 2 = b1'.extractLsb' 0 2 →
    exec (.decode [x, b1, b2]) s = exec (.decode [x', b1', b2]) s)

/-- R87, R88: the RawResponse row answers the code in its ten code bits, whatever its fourteen ignored bits are. -/
def Obligations.RawResponseRowAnswersItsCode : Prop :=
  ∀ (x : BitVec 14) (d : BitVec 10) (s : State), exec (.rsp24 x d) s = .next (s.replied (.ok (.code d)))

/-- R224, R185: a MalformedResponse is delivered only to a DECODE request whose operand has another length than 3; no XFER,
READ or SREAD ever delivers one. -/
def Obligations.OnlyDecodeDeliversMalformedResponse : Prop :=
  ∀ (s s' : State) (t n : Nat), s.Inv → step s = .next s' →
    (t, Reply.fail (.malformedResponse n)) ∈ s'.replies → (t, Reply.fail (.malformedResponse n)) ∉ s.replies →
    ∃ (w : ReqWord) (rest : List Event) (rsp : List Byte),
      s.inbox = .request w :: rest ∧ decode w = .ok (.decode rsp) ∧ rsp.length = n ∧ n ≠ 3

/-! ## SCALE -/

/-- R160: SCALE answers the exact rational code * vref / 1024, and nothing else changes. -/
def Obligations.ScaleMultipliesAndDividesBy1024 : Prop :=
  ∀ (code : Code) (vref : NumT) (s : State), 0 < vref →
    exec (.scale code vref) s = .next (s.replied (.ok (.reading ((code.toNat : NumT) * vref / 1024))))

/-- R164: range and shape of the scaler. -/
def Obligations.ScalerRangeAndShape : Prop :=
  ∀ (vref : NumT), 0 < vref →
    scaleUnit 0 vref = 0 ∧
    scaleUnit 1023 vref = vref * 1023 / 1024 ∧ scaleUnit 1023 vref < vref ∧
    (∀ code : Code, 0 ≤ scaleUnit code vref ∧ scaleUnit code vref < vref) ∧
    (∀ code code' : Code, code'.toNat = code.toNat + 1 → scaleUnit code' vref - scaleUnit code vref = vref / 1024) ∧
    (∀ code code' : Code, code.toNat < code'.toNat → scaleUnit code vref < scaleUnit code' vref) ∧
    (∀ (code : Code) (k : NumT), scaleUnit code (k * vref) = k * scaleUnit code vref) ∧
    scaleUnit 512 vref = vref / 2 ∧
    (∀ code code' : Code, scaleUnit code vref = scaleUnit code' vref → code = code')

/-- R165: with the reference voltage held as an unsigned integer V with F fraction bits, code * V read with F + 10 fraction
bits is the exact reading, and 10 + width(V) bits hold it. -/
def Obligations.FixedPointScalerIsExact : Prop :=
  ∀ (code : Code) (V F width : Nat), V < 2 ^ width →
    scaleUnit code ((V : NumT) / 2 ^ F) = ((code.toNat * V : Nat) : NumT) / 2 ^ (F + 10) ∧
    code.toNat * V < 2 ^ (10 + width)

/-- R166, R186: READ and SCALE with a reference voltage that is not positive are refused; no value is computed. -/
def Obligations.NonPositiveReferenceIsRefused : Prop :=
  ∀ (chip : ChipModel) (ch : Int) (code : Code) (vref : NumT) (h : Handle) (s : State), vref ≤ 0 →
    exec (.scale code vref) s = .refused .nonPositiveReference ∧
    exec (.read chip ch vref h) s = .refused .nonPositiveReference

/-! ## XFER -/

/-- R130, R132, R134, R135 of an XFER answered in its own step (log entry 5: the answer is the next event; one that comes later
is in EveryAnswerReleasesTheLink): XFER on an open handle of a free link makes one exchange with the bytes of `cmd` as they are
and answers what R130 says for the answer heard: three bytes unchanged, any other count a TransportError(length_mismatch) with
the count, Failed a TransportError(exchange_failed). The link is free afterwards, and nothing of the session changes. Whether the
exchange is traced is free (log entry 12). -/
def Obligations.XferExchangesOnceAndChecksTheLength : Prop :=
  ∀ (cmd : Frame) (h : Handle) (link : Link) (a : Answer) (rest : List Event) (s : State),
    s.Fresh → findHandle h s.handles = some ⟨link, true⟩ → link ∉ s.busy → a.ofExchange →
    s.inbox = .move (.answer s.nextTicket a) :: rest →
    exec (.xfer cmd h) s = .next (s.exchanged h cmd (some link) [(link, cmd)] a rest (xferReply a))

/-- R135, R187, U19: XFER and READ on a handle that is not open fail with exchange_failed, whatever the transport is
said to answer, and no frame goes out. -/
def Obligations.ClosedHandleFailsTheExchange : Prop :=
  ∀ (cmd : Frame) (chip : ChipModel) (ch : Int) (vref : NumT) (h : Handle) (a : Answer) (rest : List Event) (s : State),
    s.Fresh → s.isOpen h = false → (∀ l, s.linkOf h = some l → l ∉ s.busy) → a.ofExchange →
    s.inbox = .move (.answer s.nextTicket a) :: rest →
    exec (.xfer cmd h) s
      = .next (s.exchanged h cmd (s.linkOf h) [] .failed rest (.fail (.transportError .exchangeFailed))) ∧
    (channelLegal chip ch → 0 < vref →
      exec (.read chip ch vref h) s
        = .next (s.exchanged h (commandFrame chip ch.toNat) (s.linkOf h) [] .failed rest
            (.fail (.transportError .exchangeFailed))))

/-- R63, R131: a request whose exchange is not answered at once waits with its Command built; it has called nothing and sent
nothing. That is so of XFER, READ and SREAD; the context of an SREAD issued on a CLOSED session is marked not usable (R204, log
entry 8). On a busy link Acquire has no step: it changes nothing, and a request that is issued while its link is busy waits even
if the next event is an answer to it, which is used up (log entries 6 and 10). -/
def Obligations.BlockedRequestSendsNothing : Prop :=
  (∀ (cmd : Frame) (h : Handle) (s s' : State),
    (((∀ a rest, s.inbox ≠ .move (.answer s.nextTicket a) :: rest) ∧ s' = s) ∨
      (s.Fresh ∧ ∃ l a rest, s.linkOf h = some l ∧ l ∈ s.busy ∧ s.inbox = .move (.answer s.nextTicket a) :: rest ∧
        s' = { s with inbox := rest })) →
    exec (.xfer cmd h) s = .next (s'.waiting .xfer cmd h true) ∧
    (∀ (chip : ChipModel) (ch : Int) (vref : NumT), channelLegal chip ch → 0 < vref →
      exec (.read chip ch vref h) s
        = .next (s'.waiting (.read ⟨ch, chip, vref⟩) (commandFrame chip ch.toNat) h true)) ∧
    (∀ (ch : Option Int) (r : Regs), r.handle = h → channelLegal r.chip (ch.getD r.chDefault) →
      (s.session = .opened r →
        exec (.sread ch) s = .next (s'.waiting (.sread ⟨ch.getD r.chDefault, r.chip, r.vref⟩)
          (commandFrame r.chip (ch.getD r.chDefault).toNat) h true)) ∧
      (s.session = .closed r →
        exec (.sread ch) s = .next (s'.waiting (.sread ⟨ch.getD r.chDefault, r.chip, r.vref⟩)
          (commandFrame r.chip (ch.getD r.chDefault).toNat) h false)))) ∧
  (∀ (s : State) (t : Nat) (c : Ctx) (l : Link), s.findCtx t = some c → c.phase = .wait → s.linkOf c.handle = some l →
    l ∈ s.busy → perform (.advance t) s = .next s)

/-- R61, R130, R239: any request that waits for a free link may be the next to acquire it: it locks that link and no
other, and calls Exchange with its Command, in one step. The frame goes out if the handle is open and the request was not issued
as an SREAD on a CLOSED session, which can only fail even if its handle is open again (log entry 8). A request on a handle that
was never opened takes no lock and sends nothing (log entry 8). Nothing of the session changes. -/
def Obligations.AnyWaitingRequestMayAcquireAFreeLink : Prop :=
  ∀ (s : State) (t : Nat) (c : Ctx), s.findCtx t = some c → c.phase = .wait →
    (∀ (l : Link) (isOpen : Bool), findHandle c.handle s.handles = some ⟨l, isOpen⟩ → l ∉ s.busy →
      ∃ busy,
        perform (.advance t) s = .next { s with
          busy := busy
          contexts := s.contexts.map fun d =>
            if d.ticket = t then { d with phase := .exch (some l) (c.usable && isOpen) } else d
          calls := s.calls ++ [.exchange c.handle c.cmd]
          wire := s.wire ++ (if c.usable && isOpen then [(l, c.cmd)] else []) } ∧
        ∀ k, k ∈ busy ↔ (k = l ∨ k ∈ s.busy)) ∧
    (findHandle c.handle s.handles = none →
      perform (.advance t) s = .next { s with
        contexts := s.contexts.map fun d => if d.ticket = t then { d with phase := .exch none false } else d
        calls := s.calls ++ [.exchange c.handle c.cmd] })

/-- R130, R131, R134, R135, R62: whatever the transport answers to an exchange, Bytes of any length or Failed, the lock of its
link is released in that step and no other link's is touched (`link` is none on a handle that never named one). What is heard is
the answer, or Failed on a handle that was not open when Exchange was called (log entry 8). On three bytes a READ or SREAD goes
on to DECODE with them; in every other case the request ends: an XFER with the bytes or the TransportError, a READ or SREAD with
the TransportError. Nothing else changes but the trace, which is free (log entry 12). -/
def Obligations.EveryAnswerReleasesTheLink : Prop :=
  ∀ (s : State) (c : Ctx) (link : Option Link) (live : Bool) (a heard : Answer), s.Inv → c ∈ s.contexts →
    c.phase = .exch link live → a.ofExchange → heard = (if live then a else .failed) →
    ∃ busy, (∀ k, k ∈ busy ↔ (link ≠ some k ∧ k ∈ s.busy)) ∧
      (∀ bs, c.origin ≠ .xfer → heard = .bytes bs → bs.length = 3 →
        perform (.answer c.ticket a) s = .next { s with
          busy := busy
          contexts := s.contexts.map fun d => if d.ticket = c.ticket then { d with phase := .decode bs } else d
          trace := if tracesAnswer heard then s.trace ++ [.exchange link heard] else s.trace }) ∧
      ((c.origin = .xfer ∨ ∀ bs, heard = .bytes bs → bs.length ≠ 3) →
        perform (.answer c.ticket a) s = .next { s with
          busy := busy
          contexts := s.contexts.filter fun d => decide (d.ticket ≠ c.ticket)
          replies := s.replies ++ [(c.ticket, xferReply heard)]
          trace := if tracesAnswer heard then s.trace ++ [.exchange link heard] else s.trace })

/-! ## READ -/

/-- R180: READ of a legal channel with a positive reference voltage, on an open handle of a free link whose transport answers,
makes one exchange with the Command of its chip and channel, and answers the reading of bytes 1 and 2 or the TransportError.
The link is free afterwards, and nothing of the session changes. -/
def Obligations.ReadBuildsExchangesDecodesAndScales : Prop :=
  ∀ (chip : ChipModel) (ch : Int) (vref : NumT) (h : Handle) (link : Link) (a : Answer) (rest : List Event) (s : State),
    s.Fresh → channelLegal chip ch → 0 < vref → findHandle h s.handles = some ⟨link, true⟩ → link ∉ s.busy →
    a.ofExchange → s.inbox = .move (.answer s.nextTicket a) :: rest →
    exec (.read chip ch vref h) s
      = .next (s.exchanged h (commandFrame chip ch.toNat) (some link) [(link, commandFrame chip ch.toNat)] a rest
          (readReply vref a))

/-- R226, R181: a READ with a bad channel answers InvalidChannel at once, whatever the state of its handle, the link and the
transport: no exchange takes place and nothing is sent. -/
def Obligations.ReadReportsTheChannelBeforeTheTransport : Prop :=
  ∀ (chip : ChipModel) (ch : Int) (vref : NumT) (h : Handle) (s : State), ¬ channelLegal chip ch → 0 < vref →
    exec (.read chip ch vref h) s = .next (s.replied (.fail (.invalidChannel ch chip)))

/-- R188: a READ as one step at its exchange and the same READ taken step by step (issue, acquire, answer and release,
DECODE, SCALE) end in the same state, for every answer of the transport. -/
def Obligations.OneStepReadEqualsStepByStepRead : Prop :=
  ∀ (chip : ChipModel) (ch : Int) (vref : NumT) (h : Handle) (link : Link) (isOpen : Bool) (a : Answer) (rest : List Event)
    (s : State),
    s.Inv → channelLegal chip ch → 0 < vref → findHandle h s.handles = some ⟨link, isOpen⟩ → link ∉ s.busy → a.ofExchange →
    ∃ s₀ s₁,
      exec (.read chip ch vref h) { s with inbox := .move (.answer s.nextTicket a) :: rest } = .next s₁ ∧
      exec (.read chip ch vref h) { s with
        inbox := .move (.advance s.nextTicket) :: .move (.answer s.nextTicket a) :: .move (.advance s.nextTicket)
          :: .move (.advance s.nextTicket) :: rest } = .next s₀ ∧
      Sys2Proof.core.run 4 s₀ = .next s₁

/-- R181, R180: after its exchange a reading request takes DECODE and then SCALE, one step each, touching nothing shared, and
its caller gets the reading. -/
def Obligations.DecodeAndScaleFollowTheExchange : Prop :=
  ∀ (s : State) (c : Ctx), s.Inv → c ∈ s.contexts →
    (∀ x b1 b2, c.phase = .decode [x, b1, b2] →
      ∃ code : Code, code.toNat = 256 * (b1.toNat % 4) + b2.toNat ∧
        perform (.advance c.ticket) s = .next { s with
          contexts := s.contexts.map fun d => if d.ticket = c.ticket then { d with phase := .scale code } else d }) ∧
    (∀ code v, c.phase = .scale code → c.origin.vals = some v →
      perform (.advance c.ticket) s = .next { s with
        contexts := s.contexts.filter fun d => decide (d.ticket ≠ c.ticket)
        replies := s.replies ++ [(c.ticket, .ok (.reading ((code.toNat : NumT) * v.vref / 1024)))] })

/-! ## CONFIGURE -/

/-- R195, R200, R202: CONFIGURE of legal operands, from UNCONFIGURED or CLOSED with no SREAD in flight, calls Open once with the
instance's identifiers, the clock rate and the mode as given; when the transport answers a handle all seven registers are
written together, the session is OPEN and the handle is open on the instance's link. Nothing else changes.
Three forms (log entries 5 and 6): the answer is the next event, and CONFIGURE ends in its own step; it is not, and CONFIGURE is
in flight with its operands, the slot as it was; and the answer ends a CONFIGURE in flight. -/
def Obligations.ConfigureOpensTheSession : Prop :=
  (∀ (chip : ChipModel) (chDefault clockHz : Int) (vref : Option NumT) (mode : SpiMode) (s : State),
    s.Fresh → s.session.sstate ≠ .opened → s.sreadInFlight = false → 0 < vref.getD 5 → 0 < clockHz →
    (∀ h rest, s.inbox = .move (.answer s.nextTicket (.handle h)) :: rest →
      exec (.configure (chipField chip) chDefault clockHz vref mode) s = .next { s with
        session := .opened ⟨chip, vref.getD 5, chDefault, clockHz, mode, h⟩
        handles := putHandle h ⟨Config.ownLink, true⟩ s.handles
        inbox := rest
        nextTicket := s.nextTicket + 1
        replies := s.replies ++ [(s.nextTicket, .ok .none)]
        calls := s.calls ++ [.open Config.linkBusId Config.linkDeviceId clockHz mode] }) ∧
    ((∀ a rest, s.inbox ≠ .move (.answer s.nextTicket a) :: rest) →
      exec (.configure (chipField chip) chDefault clockHz vref mode) s = .next { s with
        opening := s.opening ++ [⟨s.nextTicket, chip, vref.getD 5, chDefault, clockHz, mode⟩]
        nextTicket := s.nextTicket + 1
        calls := s.calls ++ [.open Config.linkBusId Config.linkDeviceId clockHz mode] })) ∧
  (∀ (s : State) (o : Opening) (h : Handle), s.Inv → o ∈ s.opening → s.session.sstate ≠ .opened → s.sreadInFlight = false →
    perform (.answer o.ticket (.handle h)) s = .next { s with
      session := .opened ⟨o.chip, o.vref, o.chDefault, o.clockHz, o.spiMode, h⟩
      handles := putHandle h ⟨Config.ownLink, true⟩ s.handles
      opening := s.opening.filter fun p => decide (p.ticket ≠ o.ticket)
      replies := s.replies ++ [(o.ticket, .ok .none)] })

/-- R197 to R199, R228, R202: the three checks of CONFIGURE in their order, each with the failure that names its operand;
Open is not called and no register is written. -/
def Obligations.ConfigureChecksItsOperandsInOrder : Prop :=
  ∀ (chip : BitVec 2) (chDefault clockHz : Int) (vref : Option NumT) (mode : SpiMode) (s : State),
    s.session.sstate ≠ .opened → s.sreadInFlight = false →
    (chip = 0b11#2 →
      exec (.configure chip chDefault clockHz vref mode) s
        = .next (s.replied (.fail (.invalidConfiguration .chipModel)))) ∧
    (chip ≠ 0b11#2 → vref.getD 5 ≤ 0 →
      exec (.configure chip chDefault clockHz vref mode) s
        = .next (s.replied (.fail (.invalidConfiguration .referenceVoltage)))) ∧
    (chip ≠ 0b11#2 → 0 < vref.getD 5 → clockHz ≤ 0 →
      exec (.configure chip chDefault clockHz vref mode) s
        = .next (s.replied (.fail (.invalidConfiguration .clockHz))))

/-- R200, R202: if Open fails, CONFIGURE answers TransportError(open_failed) and the slot is as it was: in its own step, where
the answer is the next event, and later, where the CONFIGURE is in flight (log entries 5 and 6). -/
def Obligations.FailedOpenLeavesTheSlot : Prop :=
  (∀ (chip : ChipModel) (chDefault clockHz : Int) (vref : Option NumT) (mode : SpiMode) (rest : List Event) (s : State),
    s.Fresh → s.session.sstate ≠ .opened → s.sreadInFlight = false → 0 < vref.getD 5 → 0 < clockHz →
    s.inbox = .move (.answer s.nextTicket .failed) :: rest →
    exec (.configure (chipField chip) chDefault clockHz vref mode) s = .next { s with
      inbox := rest
      nextTicket := s.nextTicket + 1
      replies := s.replies ++ [(s.nextTicket, .fail (.transportError .openFailed))]
      calls := s.calls ++ [.open Config.linkBusId Config.linkDeviceId clockHz mode] }) ∧
  (∀ (s : State) (o : Opening), s.Inv → o ∈ s.opening →
    perform (.answer o.ticket .failed) s = .next { s with
      opening := s.opening.filter fun p => decide (p.ticket ≠ o.ticket)
      replies := s.replies ++ [(o.ticket, .fail (.transportError .openFailed))] })

/-- R196: a CONFIGURE without a reference voltage is a CONFIGURE with exactly 5; a request that leaves out one of the other four
operands is no CONFIGURE. -/
def Obligations.ConfigureDefaultsToFiveVolts : Prop :=
  (∀ (chip : BitVec 2) (chDefault clockHz : Int) (mode : SpiMode) (s : State),
    exec (.configure chip chDefault clockHz none mode) s = exec (.configure chip chDefault clockHz (some 5) mode) s) ∧
  (∀ chip chDefault clockHz vref mode : Operand,
    (chip = .absent ∨ chDefault = .absent ∨ clockHz = .absent ∨ mode = .absent) →
    decode (.hostop 0b000#3 [chip, chDefault, clockHz, vref, mode]) = .error .operandShape)

/-- R201, R212, R204, R210: the life-cycle refusals. CONFIGURE is refused on an OPEN session and while an SREAD is in flight;
CLOSE on an OPEN session is refused while an SREAD is in flight; SREAD and CLOSE are refused before the first session. The
model's choice (log entry 9): the first two and the third are looked at again when Open answers a handle and when Close answers,
and a CLOSE is refused while another waits for Close. -/
def Obligations.LifeCycleRefusals : Prop :=
  ∀ (chip : BitVec 2) (chDefault clockHz : Int) (vref : Option NumT) (mode : SpiMode) (ch : Option Int) (r : Regs)
    (s : State),
    (s.session = .opened r → exec (.configure chip chDefault clockHz vref mode) s = .refused .configureWhileOpen) ∧
    (s.session.sstate ≠ .opened → s.sreadInFlight = true →
      exec (.configure chip chDefault clockHz vref mode) s = .refused .sreadInFlight) ∧
    (s.session = .opened r → s.sreadInFlight = true → exec .close s = .refused .sreadInFlight) ∧
    (s.session = .unconfigured → exec (.sread ch) s = .refused .noSession ∧ exec .close s = .refused .noSession) ∧
    (s.session = .opened r → s.sreadInFlight = false → s.closing ≠ none → exec .close s = .refused .closeInFlight) ∧
    (∀ (o : Opening) (h : Handle), s.Inv → o ∈ s.opening →
      (s.session = .opened r → perform (.answer o.ticket (.handle h)) s = .refused .configureWhileOpen) ∧
      (s.session.sstate ≠ .opened → s.sreadInFlight = true →
        perform (.answer o.ticket (.handle h)) s = .refused .sreadInFlight)) ∧
    (∀ (t : Nat) (a : Answer), s.session = .opened r → s.closing = some t → s.sreadInFlight = true →
      (a = .done ∨ a = .failed) → perform (.answer t a) s = .refused .sreadInFlight)

/-! ## SREAD -/

/-- R203, R205: SREAD on an OPEN session, with its channel or with CH_DEFAULT if it gives none, makes one exchange on the
session's handle with the Command of the session's chip, and answers the reading at the session's reference voltage or the
failure. No session register changes. -/
def Obligations.SreadReadsWithTheSessionsValues : Prop :=
  ∀ (ch : Option Int) (r : Regs) (link : Link) (a : Answer) (rest : List Event) (s : State),
    s.Fresh → s.session = .opened r → channelLegal r.chip (ch.getD r.chDefault) →
    findHandle r.handle s.handles = some ⟨link, true⟩ → link ∉ s.busy → a.ofExchange →
    s.inbox = .move (.answer s.nextTicket a) :: rest →
    exec (.sread ch) s
      = .next (s.exchanged r.handle (commandFrame r.chip (ch.getD r.chDefault).toNat) (some link)
          [(link, commandFrame r.chip (ch.getD r.chDefault).toNat)] a rest (readReply r.vref a))

/-- R206: on an OPEN session SREAD behaves in every respect as the READ of the session's values: the next states differ at
most in the contexts, and there only in that a context says SREAD where the other says READ. -/
def Obligations.SreadBehavesAsRead : Prop :=
  ∀ (ch : Option Int) (r : Regs) (s : State), s.Inv → s.session = .opened r →
    ∃ t u, exec (.sread ch) s = .next t ∧
      exec (.read r.chip (ch.getD r.chDefault) r.vref r.handle) s = .next u ∧
      t = { u with contexts := t.contexts } ∧ t.contexts.map Ctx.asRead = u.contexts.map Ctx.asRead

/-- R205, R222: a channel out of range for the session's chip, given or the default, is answered with InvalidChannel, in OPEN
and in CLOSED; the session stays as it is and nothing goes to the transport. -/
def Obligations.SreadReportsABadChannel : Prop :=
  ∀ (ch : Option Int) (r : Regs) (s : State), s.session = .opened r ∨ s.session = .closed r →
    ¬ channelLegal r.chip (ch.getD r.chDefault) →
    exec (.sread ch) s = .next (s.replied (.fail (.invalidChannel (ch.getD r.chDefault) r.chip)))

/-- R204: an SREAD of a legal channel on a CLOSED session makes its exchange on the released handle and answers
TransportError(exchange_failed), whatever the transport is said to answer; no frame goes out. -/
def Obligations.SreadAfterCloseFails : Prop :=
  ∀ (ch : Option Int) (r : Regs) (a : Answer) (rest : List Event) (s : State),
    s.Fresh → s.session = .closed r → channelLegal r.chip (ch.getD r.chDefault) →
    (∀ l, s.linkOf r.handle = some l → l ∉ s.busy) → a.ofExchange →
    s.inbox = .move (.answer s.nextTicket a) :: rest →
    exec (.sread ch) s
      = .next (s.exchanged r.handle (commandFrame r.chip (ch.getD r.chDefault).toNat) (s.linkOf r.handle) [] .failed rest
          (.fail (.transportError .exchangeFailed)))

/-- R204, D19: a request that was issued on a CLOSED session never returns a reading, whatever else happens until it ends. -/
def Obligations.NoReadingAfterClose : Prop :=
  ∀ (s s' : State) (c : Ctx) (r : Reply), s.Inv → step s = .next s' → c ∈ s.contexts → c.usable = false →
    (c.ticket, r) ∈ s'.replies → r = .fail (.transportError .exchangeFailed)

/-! ## CLOSE -/

/-- R209, R211: CLOSE on an OPEN session with no SREAD in flight calls Close once; whatever the transport answers, the
session is CLOSED with its registers kept, the handle is open no more, and CLOSE succeeds. That the handle counts as closed also
when Close answered Failed is log entry 8.
Three forms (log entries 5 and 6): the answer is the next event, and CLOSE ends in its own step; it is not, and CLOSE is in
flight, the session still OPEN; and the answer ends the CLOSE in flight. -/
def Obligations.CloseReleasesTheHandle : Prop :=
  ∀ (r : Regs) (s : State), s.Inv → s.session = .opened r → s.sreadInFlight = false →
    (s.closing = none →
      (∀ a rest, (a = .done ∨ a = .failed) → s.inbox = .move (.answer s.nextTicket a) :: rest →
        exec .close s = .next { s with
          session := .closed r
          handles := putHandle r.handle ⟨Config.ownLink, false⟩ s.handles
          inbox := rest
          nextTicket := s.nextTicket + 1
          replies := s.replies ++ [(s.nextTicket, .ok .none)]
          calls := s.calls ++ [.close r.handle]
          trace := if Config.tracePresent && decide (a = .failed) then s.trace ++ [.closeFailed r.handle] else s.trace }) ∧
      ((∀ a rest, s.inbox ≠ .move (.answer s.nextTicket a) :: rest) →
        exec .close s = .next { s with
          closing := some s.nextTicket
          nextTicket := s.nextTicket + 1
          calls := s.calls ++ [.close r.handle] })) ∧
    (∀ t a, s.closing = some t → (a = .done ∨ a = .failed) →
      perform (.answer t a) s = .next { s with
        session := .closed r
        handles := putHandle r.handle ⟨Config.ownLink, false⟩ s.handles
        closing := none
        replies := s.replies ++ [(t, .ok .none)]
        trace := if Config.tracePresent && decide (a = .failed) then s.trace ++ [.closeFailed r.handle] else s.trace })

/-- R210: CLOSE on a CLOSED session does nothing and succeeds; Close is not called again. -/
def Obligations.SecondCloseDoesNothing : Prop :=
  ∀ (r : Regs) (s : State), s.session = .closed r → exec .close s = .next (s.replied (.ok .none))

/-! ## Decoding and the step -/

/-- A request whose word decodes to an instruction runs it: the step is exec of that instruction in the state whose inbox has
moved on; a word that names no instruction is refused with the reason; and with nothing to do the step changes nothing. -/
def Obligations.StepRunsTheDecodedInstruction : Prop :=
  ∀ (s : State) (w : ReqWord) (rest : List Event),
    (∀ i, s.inbox = .request w :: rest → decode w = .ok i → step s = exec i { s with inbox := rest }) ∧
    (∀ why, s.inbox = .request w :: rest → decode w = .error why → step s = .refused (.badRequest why)) ∧
    (s.inbox = [] → step s = .next s)

/-- The decoder on words written from the spec's encodings (R92 to R94, R89, R87), one or more per format, and its named
rejections (R91, R94, R90). -/
def Obligations.WordsOfTheSpecDecode : Prop :=
  decode (.hostop 0b000#3 [.chip 0b10#2, .int 0, .int 1000000, .num 5, .mode 0b00#2])
    = .ok (.configure 0b10#2 0 1000000 (some 5) .mode0) ∧
  decode (.hostop 0b001#3 [.int 1]) = .ok (.sread (some 1)) ∧
  decode (.hostop 0b011#3 [.chip 0b10#2, .int 1, .num 5, .handle 4]) = .ok (.read .mcp3008 1 5 4) ∧
  decode (.hostop 0b101#3 [.bytes [0x01#8, 0x90#8, 0x00#8], .handle 4])
    = .ok (.xfer ⟨0x01#8, 0x90#8, 0x00#8⟩ 4) ∧
  decode (.cmd24 0b00#2 0b000000011100000000000000#24) = .ok .cmd24Mcp3002Ch1 ∧
  decode (.cmd24 0b10#2 0b000000011100000000000000#24) = .ok .cmd24Mcp3008Ch4 ∧
  decode (.rsp24 0b000000010000001000000011#24) = .ok (.rsp24 0b00000001000000#14 0b1000000011#10) ∧
  decode (.hostop 0b100#3 [.chip 0b11#2, .int 0]) = .error .reservedChip ∧
  decode (.hostop 0b000#3 [.chip 0b10#2, .int 0, .int 1, .absent, .mode 0b01#2]) = .error .unsupportedMode ∧
  decode (.cmd24 0b01#2 0x01C000#24) = .error .notACommandFrame

/-- Decoding the word of an instruction gives the instruction back, with every operand; a pattern row gives the exact row of
its channel, another name of the same word, which has the same meaning in every state. -/
def Obligations.DecodeOfEncodeGivesTheInstruction : Prop :=
  ∀ i : Instr, decode (encode i) = .ok i.canonical ∧ (∀ s, exec i.canonical s = exec i s) ∧
    ((∀ c, i ≠ .cmd24Mcp3002 c) → (∀ cc, i ≠ .cmd24Mcp3004 cc) → (∀ ccc, i ≠ .cmd24Mcp3008 ccc) → i.canonical = i)

/-- Where a request word names an instruction, the word has the bits of that instruction's row of the opcode table: the
selector of R92, the frames of R89. -/
def Obligations.DecodedWordsMatchTheirRow : Prop :=
  ∀ (w : ReqWord) (i : Instr), decode w = .ok i →
    w.tableBits.1 = i.tableRow.1 ∧ w.tableBits.2 &&& i.tableRow.2.2 = i.tableRow.2.1

/-! ## Reset -/

/-- R260: the state after reset. -/
def Obligations.ResetState : Prop :=
  State.reset.session = .unconfigured ∧ State.reset.contexts = [] ∧ State.reset.opening = [] ∧
  State.reset.closing = none ∧ (∀ l, State.reset.linkBusy (some l) = false) ∧ (∀ h, State.reset.isOpen h = false)

/-- The invariant holds after reset, whatever the outside is going to do. -/
def Obligations.ResetMeetsTheInvariant : Prop :=
  ∀ events : List Event, State.Inv { State.reset with inbox := events }

/-! ## Rules of the whole machine -/

/-- The invariant (R38, R240 and the canonical forms) is kept by every step: by every instruction and by every move of the
other agents. -/
def Obligations.EveryStepKeepsTheInvariant : Prop :=
  ∀ s s' : State, s.Inv → step s = .next s' → s'.Inv

/-- R240: in every state reached from reset, whatever the outside does, for every link at most one request context is in
EXCH on it, no other user holds it then, and BUSY is 1 exactly when one of them does. That another user of the transport may hold
a link, and that its hold counts as an exchange in flight, is log entry 11. -/
def Obligations.ExchangesOnOneLinkNeverOverlap : Prop :=
  ∀ (events : List Event) (s : State) (l : Link), Reached events s →
    s.contexts.countP (fun c => c.holds l) ≤ 1 ∧
    (l ∈ s.outside → s.contexts.countP (fun c => c.holds l) = 0) ∧
    (l ∈ s.busy ↔ (s.contexts.countP (fun c => c.holds l) = 1 ∨ l ∈ s.outside))

/-- R38: in every state reached from reset the registers of the slot are legal, and every request context holds the Command of
its chip and channel, three response bytes once it has passed its exchange, and a reading from 0 up to below its reference
voltage once it is scaled. -/
def Obligations.ReachedContextsAreGood : Prop :=
  ∀ (events : List Event) (s : State), Reached events s →
    (∀ r, s.session = .opened r ∨ s.session = .closed r → 0 < r.vref ∧ 0 < r.clockHz) ∧
    (∀ c ∈ s.contexts, ∀ v, c.origin.vals = some v →
      c.cmd.b0 = 0x01#8 ∧ c.cmd.b2 = 0x00#8 ∧
      (∃ row ∈ cmdRows, row.chip = v.chip ∧ (row.channel : Int) = v.ch ∧ row.word = c.cmd.word) ∧
      (∀ rsp, c.phase = .decode rsp → rsp.length = 3) ∧
      (∀ code, c.phase = .scale code → 0 ≤ scaleUnit code v.vref ∧ scaleUnit code v.vref < v.vref))

/-- R28: while a session is OPEN a step changes none of its registers; the session stays OPEN, or it becomes CLOSED with the
registers kept. -/
def Obligations.OpenSessionIsImmutable : Prop :=
  ∀ (s s' : State) (r : Regs), s.session = .opened r → step s = .next s' →
    s'.session = .opened r ∨ s'.session = .closed r

/-- R201, R212: while an SREAD is in flight no step changes the session slot. -/
def Obligations.SlotDoesNotChangeUnderAnSread : Prop :=
  ∀ s s' : State, s.sreadInFlight = true → step s = .next s' → s'.session = s.session

/-- R261: no step leads back to UNCONFIGURED. -/
def Obligations.NoWayBackToUnconfigured : Prop :=
  ∀ s s' : State, step s = .next s' → s'.session = .unconfigured → s.session = .unconfigured

/-- R137, R272: a request whose exchange the transport never answers stays in its exchange, and its link stays busy, however
many steps the machine takes. -/
def Obligations.UnansweredExchangeHangsItsLink : Prop :=
  ∀ (s s' : State) (c : Ctx) (link : Option Link) (live : Bool) (k : Nat), s.Inv → c ∈ s.contexts →
    c.phase = .exch link live → (∀ a, Event.move (.answer c.ticket a) ∉ s.inbox) →
    Sys2Proof.core.run k s = .next s' →
    c ∈ s'.contexts ∧ (∀ l, link = some l → l ∈ s'.busy)

/-- R273: a caller that is blocked is blocked by the one that holds its link: another user of the transport (log entry 11), or a
request of this block with an exchange in flight, which holds no other lock and waits for nothing but the transport: no cycle of
waiting requests forms. -/
def Obligations.BlockedOnlyByAnExchangeInFlight : Prop :=
  ∀ (s : State) (c : Ctx) (l : Link), s.Inv → c ∈ s.contexts → c.phase = .wait → s.linkOf c.handle = some l → l ∈ s.busy →
    l ∈ s.outside ∨ ∃ d ∈ s.contexts, d.holds l = true ∧ ∀ k, d.holds k = true → k = l

/-- R31, R29, R81: a request context goes through its phases in the fixed order and never backwards, and nothing else in it
ever changes: a Command is "immutable once built". -/
def Obligations.PhasesNeverGoBackwards : Prop :=
  ∀ (s s' : State) (c c' : Ctx), s.Inv → step s = .next s' → c ∈ s.contexts → c' ∈ s'.contexts → c'.ticket = c.ticket →
    c' = { c with phase := c'.phase } ∧ (c'.phase = c.phase ∨ c.phase.rank < c'.phase.rank)

/-- R132, R182: a step makes at most one Exchange call. A move makes one only where a waiting request takes its Acquire step,
with that request's Command; with the fixed order of the phases, one request never makes a second. -/
def Obligations.OnlyAcquireCallsExchange : Prop :=
  ∀ (s s' : State) (m : Move), s.Inv → perform m s = .next s' →
    s'.calls = s.calls ∨
    ∃ t c, m = .advance t ∧ s.findCtx t = some c ∧ c.phase = .wait ∧ s'.calls = s.calls ++ [.exchange c.handle c.cmd] ∧
      ∃ c' ∈ s'.contexts, c'.ticket = t ∧ c'.phase.rank = 2

/-- R226, R230, R184: in every state reached from reset, a request that was accepted is either in flight, and has no reply, or
has exactly one. -/
def Obligations.EveryRequestHasAtMostOneReply : Prop :=
  ∀ (events : List Event) (s : State) (t : Nat), Reached events s →
    s.replies.countP (fun r => decide (r.1 = t)) ≤ 1 ∧
    (t < s.nextTicket → (s.replies.countP (fun r => decide (r.1 = t)) = 1 ↔
      ((∀ c ∈ s.contexts, c.ticket ≠ t) ∧ (∀ o ∈ s.opening, o.ticket ≠ t) ∧ s.closing ≠ some t)))

/-- R230, R243: what has gone out is never taken back: replies, calls, frames and trace records are only added to. -/
def Obligations.LogsOnlyGrow : Prop :=
  ∀ s s' : State, step s = .next s' →
    s.replies <+: s'.replies ∧ s.calls <+: s'.calls ∧ s.wire <+: s'.wire ∧ s.trace <+: s'.trace

/-- R243, R183, R274: nothing that has gone out is ever read: two states that differ only in their logs take steps that differ
only in their logs, or are refused alike. Trace records have no effect, and no reading is remembered. -/
def Obligations.LogsAreNeverRead : Prop :=
  ∀ s u : State, s.withoutLogs = u.withoutLogs →
    (∀ s', step s = .next s' → ∃ u', step u = .next u' ∧ s'.withoutLogs = u'.withoutLogs) ∧
    (∀ why, step s = .refused why → step u = .refused why)

/-- R117, R149, R160, R267: ENCODE, DECODE and SCALE look at no session register and at nothing else of the state: their reply
is the same in every state. -/
def Obligations.UnitsLookAtNoState : Prop :=
  ∀ (i : Instr) (s u : State), ((∃ chip ch, i = .encode chip ch) ∨ (∃ rsp, i = .decode rsp) ∨ ∃ code vref, i = .scale code vref) →
    ∀ s', exec i s = .next s' → ∃ r, s' = s.replied r ∧ exec i u = .next (u.replied r)

/-- R20, R30, R34 (b): no instruction but CONFIGURE and CLOSE touches the session slot, the handle table or a session operation
in flight, whatever it answers. -/
def Obligations.OnlyConfigureAndCloseTouchTheSlotAndTheHandles : Prop :=
  ∀ (i : Instr) (s s' : State), exec i s = .next s' →
    (∀ chip chDefault clockHz vref mode, i ≠ .configure chip chDefault clockHz vref mode) → i ≠ .close →
    s'.handles = s.handles ∧ s'.session = s.session ∧ s'.opening = s.opening ∧ s'.closing = s.closing ∧
      s'.outside = s.outside
end

