-- ==== Sys2Proof/Laws/State.lean ====
section
/-! SUPPORT. One lemma per field per update of the state, so that no later proof unfolds a record update. -/

namespace Sys2Proof.Machine

variable (s : State)

/-! ### deliver -/

@[simp] theorem State.deliver_session (t : Nat) (r : Reply) : (State.deliver t r s).session = s.session := rfl
@[simp] theorem State.deliver_contexts (t : Nat) (r : Reply) : (State.deliver t r s).contexts = s.contexts := rfl
@[simp] theorem State.deliver_opening (t : Nat) (r : Reply) : (State.deliver t r s).opening = s.opening := rfl
@[simp] theorem State.deliver_closing (t : Nat) (r : Reply) : (State.deliver t r s).closing = s.closing := rfl
@[simp] theorem State.deliver_busy (t : Nat) (r : Reply) : (State.deliver t r s).busy = s.busy := rfl
@[simp] theorem State.deliver_outside (t : Nat) (r : Reply) : (State.deliver t r s).outside = s.outside := rfl
@[simp] theorem State.deliver_handles (t : Nat) (r : Reply) : (State.deliver t r s).handles = s.handles := rfl
@[simp] theorem State.deliver_nextTicket (t : Nat) (r : Reply) : (State.deliver t r s).nextTicket = s.nextTicket := rfl
@[simp] theorem State.deliver_inbox (t : Nat) (r : Reply) : (State.deliver t r s).inbox = s.inbox := rfl
@[simp] theorem State.deliver_replies (t : Nat) (r : Reply) : (State.deliver t r s).replies = s.replies ++ [(t, r)] := rfl
@[simp] theorem State.deliver_calls (t : Nat) (r : Reply) : (State.deliver t r s).calls = s.calls := rfl
@[simp] theorem State.deliver_wire (t : Nat) (r : Reply) : (State.deliver t r s).wire = s.wire := rfl
@[simp] theorem State.deliver_trace (t : Nat) (r : Reply) : (State.deliver t r s).trace = s.trace := rfl

/-! ### nextRequest -/

@[simp] theorem State.nextRequest_session : (s.nextRequest).session = s.session := rfl
@[simp] theorem State.nextRequest_contexts : (s.nextRequest).contexts = s.contexts := rfl
@[simp] theorem State.nextRequest_opening : (s.nextRequest).opening = s.opening := rfl
@[simp] theorem State.nextRequest_closing : (s.nextRequest).closing = s.closing := rfl
@[simp] theorem State.nextRequest_busy : (s.nextRequest).busy = s.busy := rfl
@[simp] theorem State.nextRequest_outside : (s.nextRequest).outside = s.outside := rfl
@[simp] theorem State.nextRequest_handles : (s.nextRequest).handles = s.handles := rfl
@[simp] theorem State.nextRequest_nextTicket : (s.nextRequest).nextTicket = s.nextTicket + 1 := rfl
@[simp] theorem State.nextRequest_inbox : (s.nextRequest).inbox = s.inbox := rfl
@[simp] theorem State.nextRequest_replies : (s.nextRequest).replies = s.replies := rfl
@[simp] theorem State.nextRequest_calls : (s.nextRequest).calls = s.calls := rfl
@[simp] theorem State.nextRequest_wire : (s.nextRequest).wire = s.wire := rfl
@[simp] theorem State.nextRequest_trace : (s.nextRequest).trace = s.trace := rfl

/-! ### replyNow -/

@[simp] theorem State.replyNow_session (r : Reply) : (s.replyNow r).session = s.session := rfl
@[simp] theorem State.replyNow_contexts (r : Reply) : (s.replyNow r).contexts = s.contexts := rfl
@[simp] theorem State.replyNow_opening (r : Reply) : (s.replyNow r).opening = s.opening := rfl
@[simp] theorem State.replyNow_closing (r : Reply) : (s.replyNow r).closing = s.closing := rfl
@[simp] theorem State.replyNow_busy (r : Reply) : (s.replyNow r).busy = s.busy := rfl
@[simp] theorem State.replyNow_outside (r : Reply) : (s.replyNow r).outside = s.outside := rfl
@[simp] theorem State.replyNow_handles (r : Reply) : (s.replyNow r).handles = s.handles := rfl
@[simp] theorem State.replyNow_nextTicket (r : Reply) : (s.replyNow r).nextTicket = s.nextTicket + 1 := rfl
@[simp] theorem State.replyNow_inbox (r : Reply) : (s.replyNow r).inbox = s.inbox := rfl
@[simp] theorem State.replyNow_replies (r : Reply) : (s.replyNow r).replies = s.replies ++ [(s.nextTicket, r)] := rfl
@[simp] theorem State.replyNow_calls (r : Reply) : (s.replyNow r).calls = s.calls := rfl
@[simp] theorem State.replyNow_wire (r : Reply) : (s.replyNow r).wire = s.wire := rfl
@[simp] theorem State.replyNow_trace (r : Reply) : (s.replyNow r).trace = s.trace := rfl

/-! ### logCall -/

@[simp] theorem State.logCall_session (c : Call) : (s.logCall c).session = s.session := rfl
@[simp] theorem State.logCall_contexts (c : Call) : (s.logCall c).contexts = s.contexts := rfl
@[simp] theorem State.logCall_opening (c : Call) : (s.logCall c).opening = s.opening := rfl
@[simp] theorem State.logCall_closing (c : Call) : (s.logCall c).closing = s.closing := rfl
@[simp] theorem State.logCall_busy (c : Call) : (s.logCall c).busy = s.busy := rfl
@[simp] theorem State.logCall_outside (c : Call) : (s.logCall c).outside = s.outside := rfl
@[simp] theorem State.logCall_handles (c : Call) : (s.logCall c).handles = s.handles := rfl
@[simp] theorem State.logCall_nextTicket (c : Call) : (s.logCall c).nextTicket = s.nextTicket := rfl
@[simp] theorem State.logCall_inbox (c : Call) : (s.logCall c).inbox = s.inbox := rfl
@[simp] theorem State.logCall_replies (c : Call) : (s.logCall c).replies = s.replies := rfl
@[simp] theorem State.logCall_calls (c : Call) : (s.logCall c).calls = s.calls ++ [c] := rfl
@[simp] theorem State.logCall_wire (c : Call) : (s.logCall c).wire = s.wire := rfl
@[simp] theorem State.logCall_trace (c : Call) : (s.logCall c).trace = s.trace := rfl

/-! ### moveTo -/

@[simp] theorem State.moveTo_session (t : Nat) (p : Phase) : (s.moveTo t p).session = s.session := rfl
@[simp] theorem State.moveTo_contexts (t : Nat) (p : Phase) : (s.moveTo t p).contexts = setPhase t p s.contexts := rfl
@[simp] theorem State.moveTo_opening (t : Nat) (p : Phase) : (s.moveTo t p).opening = s.opening := rfl
@[simp] theorem State.moveTo_closing (t : Nat) (p : Phase) : (s.moveTo t p).closing = s.closing := rfl
@[simp] theorem State.moveTo_busy (t : Nat) (p : Phase) : (s.moveTo t p).busy = s.busy := rfl
@[simp] theorem State.moveTo_outside (t : Nat) (p : Phase) : (s.moveTo t p).outside = s.outside := rfl
@[simp] theorem State.moveTo_handles (t : Nat) (p : Phase) : (s.moveTo t p).handles = s.handles := rfl
@[simp] theorem State.moveTo_nextTicket (t : Nat) (p : Phase) : (s.moveTo t p).nextTicket = s.nextTicket := rfl
@[simp] theorem State.moveTo_inbox (t : Nat) (p : Phase) : (s.moveTo t p).inbox = s.inbox := rfl
@[simp] theorem State.moveTo_replies (t : Nat) (p : Phase) : (s.moveTo t p).replies = s.replies := rfl
@[simp] theorem State.moveTo_calls (t : Nat) (p : Phase) : (s.moveTo t p).calls = s.calls := rfl
@[simp] theorem State.moveTo_wire (t : Nat) (p : Phase) : (s.moveTo t p).wire = s.wire := rfl
@[simp] theorem State.moveTo_trace (t : Nat) (p : Phase) : (s.moveTo t p).trace = s.trace := rfl

/-! ### finish -/

@[simp] theorem State.finish_session (t : Nat) (r : Reply) : (s.finish t r).session = s.session := rfl
@[simp] theorem State.finish_contexts (t : Nat) (r : Reply) : (s.finish t r).contexts = dropCtx t s.contexts := rfl
@[simp] theorem State.finish_opening (t : Nat) (r : Reply) : (s.finish t r).opening = s.opening := rfl
@[simp] theorem State.finish_closing (t : Nat) (r : Reply) : (s.finish t r).closing = s.closing := rfl
@[simp] theorem State.finish_busy (t : Nat) (r : Reply) : (s.finish t r).busy = s.busy := rfl
@[simp] theorem State.finish_outside (t : Nat) (r : Reply) : (s.finish t r).outside = s.outside := rfl
@[simp] theorem State.finish_handles (t : Nat) (r : Reply) : (s.finish t r).handles = s.handles := rfl
@[simp] theorem State.finish_nextTicket (t : Nat) (r : Reply) : (s.finish t r).nextTicket = s.nextTicket := rfl
@[simp] theorem State.finish_inbox (t : Nat) (r : Reply) : (s.finish t r).inbox = s.inbox := rfl
@[simp] theorem State.finish_replies (t : Nat) (r : Reply) : (s.finish t r).replies = s.replies ++ [(t, r)] := rfl
@[simp] theorem State.finish_calls (t : Nat) (r : Reply) : (s.finish t r).calls = s.calls := rfl
@[simp] theorem State.finish_wire (t : Nat) (r : Reply) : (s.finish t r).wire = s.wire := rfl
@[simp] theorem State.finish_trace (t : Nat) (r : Reply) : (s.finish t r).trace = s.trace := rfl

/-! ### lockLink -/

@[simp] theorem State.lockLink_session (link : Option Link) : (s.lockLink link).session = s.session := by cases link <;> rfl
@[simp] theorem State.lockLink_contexts (link : Option Link) : (s.lockLink link).contexts = s.contexts := by cases link <;> rfl
@[simp] theorem State.lockLink_opening (link : Option Link) : (s.lockLink link).opening = s.opening := by cases link <;> rfl
@[simp] theorem State.lockLink_closing (link : Option Link) : (s.lockLink link).closing = s.closing := by cases link <;> rfl
@[simp] theorem State.lockLink_outside (link : Option Link) : (s.lockLink link).outside = s.outside := by cases link <;> rfl
@[simp] theorem State.lockLink_handles (link : Option Link) : (s.lockLink link).handles = s.handles := by cases link <;> rfl
@[simp] theorem State.lockLink_nextTicket (link : Option Link) : (s.lockLink link).nextTicket = s.nextTicket := by cases link <;> rfl
@[simp] theorem State.lockLink_inbox (link : Option Link) : (s.lockLink link).inbox = s.inbox := by cases link <;> rfl
@[simp] theorem State.lockLink_replies (link : Option Link) : (s.lockLink link).replies = s.replies := by cases link <;> rfl
@[simp] theorem State.lockLink_calls (link : Option Link) : (s.lockLink link).calls = s.calls := by cases link <;> rfl
@[simp] theorem State.lockLink_wire (link : Option Link) : (s.lockLink link).wire = s.wire := by cases link <;> rfl
@[simp] theorem State.lockLink_trace (link : Option Link) : (s.lockLink link).trace = s.trace := by cases link <;> rfl

/-! ### unlockLink -/

@[simp] theorem State.unlockLink_session (link : Option Link) : (s.unlockLink link).session = s.session := by cases link <;> rfl
@[simp] theorem State.unlockLink_contexts (link : Option Link) : (s.unlockLink link).contexts = s.contexts := by cases link <;> rfl
@[simp] theorem State.unlockLink_opening (link : Option Link) : (s.unlockLink link).opening = s.opening := by cases link <;> rfl
@[simp] theorem State.unlockLink_closing (link : Option Link) : (s.unlockLink link).closing = s.closing := by cases link <;> rfl
@[simp] theorem State.unlockLink_outside (link : Option Link) : (s.unlockLink link).outside = s.outside := by cases link <;> rfl
@[simp] theorem State.unlockLink_handles (link : Option Link) : (s.unlockLink link).handles = s.handles := by cases link <;> rfl
@[simp] theorem State.unlockLink_nextTicket (link : Option Link) : (s.unlockLink link).nextTicket = s.nextTicket := by cases link <;> rfl
@[simp] theorem State.unlockLink_inbox (link : Option Link) : (s.unlockLink link).inbox = s.inbox := by cases link <;> rfl
@[simp] theorem State.unlockLink_replies (link : Option Link) : (s.unlockLink link).replies = s.replies := by cases link <;> rfl
@[simp] theorem State.unlockLink_calls (link : Option Link) : (s.unlockLink link).calls = s.calls := by cases link <;> rfl
@[simp] theorem State.unlockLink_wire (link : Option Link) : (s.unlockLink link).wire = s.wire := by cases link <;> rfl
@[simp] theorem State.unlockLink_trace (link : Option Link) : (s.unlockLink link).trace = s.trace := by cases link <;> rfl

/-! ### openHandle -/

@[simp] theorem State.openHandle_session (h : Handle) (link : Link) : (s.openHandle h link).session = s.session := rfl
@[simp] theorem State.openHandle_contexts (h : Handle) (link : Link) : (s.openHandle h link).contexts = s.contexts := rfl
@[simp] theorem State.openHandle_opening (h : Handle) (link : Link) : (s.openHandle h link).opening = s.opening := rfl
@[simp] theorem State.openHandle_closing (h : Handle) (link : Link) : (s.openHandle h link).closing = s.closing := rfl
@[simp] theorem State.openHandle_busy (h : Handle) (link : Link) : (s.openHandle h link).busy = s.busy := rfl
@[simp] theorem State.openHandle_outside (h : Handle) (link : Link) : (s.openHandle h link).outside = s.outside := rfl
@[simp] theorem State.openHandle_handles (h : Handle) (link : Link) : (s.openHandle h link).handles = putHandle h ⟨link, true⟩ s.handles := rfl
@[simp] theorem State.openHandle_nextTicket (h : Handle) (link : Link) : (s.openHandle h link).nextTicket = s.nextTicket := rfl
@[simp] theorem State.openHandle_inbox (h : Handle) (link : Link) : (s.openHandle h link).inbox = s.inbox := rfl
@[simp] theorem State.openHandle_replies (h : Handle) (link : Link) : (s.openHandle h link).replies = s.replies := rfl
@[simp] theorem State.openHandle_calls (h : Handle) (link : Link) : (s.openHandle h link).calls = s.calls := rfl
@[simp] theorem State.openHandle_wire (h : Handle) (link : Link) : (s.openHandle h link).wire = s.wire := rfl
@[simp] theorem State.openHandle_trace (h : Handle) (link : Link) : (s.openHandle h link).trace = s.trace := rfl

/-! ### releaseHandle -/

@[simp] theorem State.releaseHandle_session (h : Handle) : (s.releaseHandle h).session = s.session := by unfold State.releaseHandle; split <;> rfl
@[simp] theorem State.releaseHandle_contexts (h : Handle) : (s.releaseHandle h).contexts = s.contexts := by unfold State.releaseHandle; split <;> rfl
@[simp] theorem State.releaseHandle_opening (h : Handle) : (s.releaseHandle h).opening = s.opening := by unfold State.releaseHandle; split <;> rfl
@[simp] theorem State.releaseHandle_closing (h : Handle) : (s.releaseHandle h).closing = s.closing := by unfold State.releaseHandle; split <;> rfl
@[simp] theorem State.releaseHandle_busy (h : Handle) : (s.releaseHandle h).busy = s.busy := by unfold State.releaseHandle; split <;> rfl
@[simp] theorem State.releaseHandle_outside (h : Handle) : (s.releaseHandle h).outside = s.outside := by unfold State.releaseHandle; split <;> rfl
@[simp] theorem State.releaseHandle_nextTicket (h : Handle) : (s.releaseHandle h).nextTicket = s.nextTicket := by unfold State.releaseHandle; split <;> rfl
@[simp] theorem State.releaseHandle_inbox (h : Handle) : (s.releaseHandle h).inbox = s.inbox := by unfold State.releaseHandle; split <;> rfl
@[simp] theorem State.releaseHandle_replies (h : Handle) : (s.releaseHandle h).replies = s.replies := by unfold State.releaseHandle; split <;> rfl
@[simp] theorem State.releaseHandle_calls (h : Handle) : (s.releaseHandle h).calls = s.calls := by unfold State.releaseHandle; split <;> rfl
@[simp] theorem State.releaseHandle_wire (h : Handle) : (s.releaseHandle h).wire = s.wire := by unfold State.releaseHandle; split <;> rfl
@[simp] theorem State.releaseHandle_trace (h : Handle) : (s.releaseHandle h).trace = s.trace := by unfold State.releaseHandle; split <;> rfl

/-! ### traceExchange -/

@[simp] theorem State.traceExchange_session (link : Option Link) (a : Answer) : (s.traceExchange link a).session = s.session := rfl
@[simp] theorem State.traceExchange_contexts (link : Option Link) (a : Answer) : (s.traceExchange link a).contexts = s.contexts := rfl
@[simp] theorem State.traceExchange_opening (link : Option Link) (a : Answer) : (s.traceExchange link a).opening = s.opening := rfl
@[simp] theorem State.traceExchange_closing (link : Option Link) (a : Answer) : (s.traceExchange link a).closing = s.closing := rfl
@[simp] theorem State.traceExchange_busy (link : Option Link) (a : Answer) : (s.traceExchange link a).busy = s.busy := rfl
@[simp] theorem State.traceExchange_outside (link : Option Link) (a : Answer) : (s.traceExchange link a).outside = s.outside := rfl
@[simp] theorem State.traceExchange_handles (link : Option Link) (a : Answer) : (s.traceExchange link a).handles = s.handles := rfl
@[simp] theorem State.traceExchange_nextTicket (link : Option Link) (a : Answer) : (s.traceExchange link a).nextTicket = s.nextTicket := rfl
@[simp] theorem State.traceExchange_inbox (link : Option Link) (a : Answer) : (s.traceExchange link a).inbox = s.inbox := rfl
@[simp] theorem State.traceExchange_replies (link : Option Link) (a : Answer) : (s.traceExchange link a).replies = s.replies := rfl
@[simp] theorem State.traceExchange_calls (link : Option Link) (a : Answer) : (s.traceExchange link a).calls = s.calls := rfl
@[simp] theorem State.traceExchange_wire (link : Option Link) (a : Answer) : (s.traceExchange link a).wire = s.wire := rfl
@[simp] theorem State.traceExchange_trace (link : Option Link) (a : Answer) : (s.traceExchange link a).trace = if tracesAnswer a then s.trace ++ [.exchange link a] else s.trace := rfl

/-! ### traceClose -/

@[simp] theorem State.traceClose_session (h : Handle) (a : Answer) : (s.traceClose h a).session = s.session := rfl
@[simp] theorem State.traceClose_contexts (h : Handle) (a : Answer) : (s.traceClose h a).contexts = s.contexts := rfl
@[simp] theorem State.traceClose_opening (h : Handle) (a : Answer) : (s.traceClose h a).opening = s.opening := rfl
@[simp] theorem State.traceClose_closing (h : Handle) (a : Answer) : (s.traceClose h a).closing = s.closing := rfl
@[simp] theorem State.traceClose_busy (h : Handle) (a : Answer) : (s.traceClose h a).busy = s.busy := rfl
@[simp] theorem State.traceClose_outside (h : Handle) (a : Answer) : (s.traceClose h a).outside = s.outside := rfl
@[simp] theorem State.traceClose_handles (h : Handle) (a : Answer) : (s.traceClose h a).handles = s.handles := rfl
@[simp] theorem State.traceClose_nextTicket (h : Handle) (a : Answer) : (s.traceClose h a).nextTicket = s.nextTicket := rfl
@[simp] theorem State.traceClose_inbox (h : Handle) (a : Answer) : (s.traceClose h a).inbox = s.inbox := rfl
@[simp] theorem State.traceClose_replies (h : Handle) (a : Answer) : (s.traceClose h a).replies = s.replies := rfl
@[simp] theorem State.traceClose_calls (h : Handle) (a : Answer) : (s.traceClose h a).calls = s.calls := rfl
@[simp] theorem State.traceClose_wire (h : Handle) (a : Answer) : (s.traceClose h a).wire = s.wire := rfl
@[simp] theorem State.traceClose_trace (h : Handle) (a : Answer) : (s.traceClose h a).trace = if Config.tracePresent && decide (a = .failed) then s.trace ++ [.closeFailed h] else s.trace := rfl

/-! ### endOpening -/

@[simp] theorem State.endOpening_session (t : Nat) : (s.endOpening t).session = s.session := rfl
@[simp] theorem State.endOpening_contexts (t : Nat) : (s.endOpening t).contexts = s.contexts := rfl
@[simp] theorem State.endOpening_opening (t : Nat) : (s.endOpening t).opening = s.opening.filter fun o => decide (o.ticket ≠ t) := rfl
@[simp] theorem State.endOpening_closing (t : Nat) : (s.endOpening t).closing = s.closing := rfl
@[simp] theorem State.endOpening_busy (t : Nat) : (s.endOpening t).busy = s.busy := rfl
@[simp] theorem State.endOpening_outside (t : Nat) : (s.endOpening t).outside = s.outside := rfl
@[simp] theorem State.endOpening_handles (t : Nat) : (s.endOpening t).handles = s.handles := rfl
@[simp] theorem State.endOpening_nextTicket (t : Nat) : (s.endOpening t).nextTicket = s.nextTicket := rfl
@[simp] theorem State.endOpening_inbox (t : Nat) : (s.endOpening t).inbox = s.inbox := rfl
@[simp] theorem State.endOpening_replies (t : Nat) : (s.endOpening t).replies = s.replies := rfl
@[simp] theorem State.endOpening_calls (t : Nat) : (s.endOpening t).calls = s.calls := rfl
@[simp] theorem State.endOpening_wire (t : Nat) : (s.endOpening t).wire = s.wire := rfl
@[simp] theorem State.endOpening_trace (t : Nat) : (s.endOpening t).trace = s.trace := rfl

/-! ### enqueue -/

@[simp] theorem State.enqueue_session (o : Origin) (cmd : Frame) (h : Handle) (u : Bool) : (s.enqueue o cmd h u).session = s.session := rfl
@[simp] theorem State.enqueue_contexts (o : Origin) (cmd : Frame) (h : Handle) (u : Bool) : (s.enqueue o cmd h u).contexts = s.contexts ++ [⟨s.nextTicket, o, cmd, h, u, .wait⟩] := rfl
@[simp] theorem State.enqueue_opening (o : Origin) (cmd : Frame) (h : Handle) (u : Bool) : (s.enqueue o cmd h u).opening = s.opening := rfl
@[simp] theorem State.enqueue_closing (o : Origin) (cmd : Frame) (h : Handle) (u : Bool) : (s.enqueue o cmd h u).closing = s.closing := rfl
@[simp] theorem State.enqueue_busy (o : Origin) (cmd : Frame) (h : Handle) (u : Bool) : (s.enqueue o cmd h u).busy = s.busy := rfl
@[simp] theorem State.enqueue_outside (o : Origin) (cmd : Frame) (h : Handle) (u : Bool) : (s.enqueue o cmd h u).outside = s.outside := rfl
@[simp] theorem State.enqueue_handles (o : Origin) (cmd : Frame) (h : Handle) (u : Bool) : (s.enqueue o cmd h u).handles = s.handles := rfl
@[simp] theorem State.enqueue_nextTicket (o : Origin) (cmd : Frame) (h : Handle) (u : Bool) : (s.enqueue o cmd h u).nextTicket = s.nextTicket + 1 := rfl
@[simp] theorem State.enqueue_inbox (o : Origin) (cmd : Frame) (h : Handle) (u : Bool) : (s.enqueue o cmd h u).inbox = s.inbox := rfl
@[simp] theorem State.enqueue_replies (o : Origin) (cmd : Frame) (h : Handle) (u : Bool) : (s.enqueue o cmd h u).replies = s.replies := rfl
@[simp] theorem State.enqueue_calls (o : Origin) (cmd : Frame) (h : Handle) (u : Bool) : (s.enqueue o cmd h u).calls = s.calls := rfl
@[simp] theorem State.enqueue_wire (o : Origin) (cmd : Frame) (h : Handle) (u : Bool) : (s.enqueue o cmd h u).wire = s.wire := rfl
@[simp] theorem State.enqueue_trace (o : Origin) (cmd : Frame) (h : Handle) (u : Bool) : (s.enqueue o cmd h u).trace = s.trace := rfl

/-! ### startOpen -/

@[simp] theorem State.startOpen_session (o : Opening) : (s.startOpen o).session = s.session := rfl
@[simp] theorem State.startOpen_contexts (o : Opening) : (s.startOpen o).contexts = s.contexts := rfl
@[simp] theorem State.startOpen_opening (o : Opening) : (s.startOpen o).opening = s.opening ++ [o] := rfl
@[simp] theorem State.startOpen_closing (o : Opening) : (s.startOpen o).closing = s.closing := rfl
@[simp] theorem State.startOpen_busy (o : Opening) : (s.startOpen o).busy = s.busy := rfl
@[simp] theorem State.startOpen_outside (o : Opening) : (s.startOpen o).outside = s.outside := rfl
@[simp] theorem State.startOpen_handles (o : Opening) : (s.startOpen o).handles = s.handles := rfl
@[simp] theorem State.startOpen_nextTicket (o : Opening) : (s.startOpen o).nextTicket = s.nextTicket + 1 := rfl
@[simp] theorem State.startOpen_inbox (o : Opening) : (s.startOpen o).inbox = s.inbox := rfl
@[simp] theorem State.startOpen_replies (o : Opening) : (s.startOpen o).replies = s.replies := rfl
@[simp] theorem State.startOpen_calls (o : Opening) : (s.startOpen o).calls = s.calls ++ [.open Config.linkBusId Config.linkDeviceId o.clockHz o.spiMode] := rfl
@[simp] theorem State.startOpen_wire (o : Opening) : (s.startOpen o).wire = s.wire := rfl
@[simp] theorem State.startOpen_trace (o : Opening) : (s.startOpen o).trace = s.trace := rfl

/-! ### startClose -/

@[simp] theorem State.startClose_session (r : Regs) : (s.startClose r).session = s.session := rfl
@[simp] theorem State.startClose_contexts (r : Regs) : (s.startClose r).contexts = s.contexts := rfl
@[simp] theorem State.startClose_opening (r : Regs) : (s.startClose r).opening = s.opening := rfl
@[simp] theorem State.startClose_closing (r : Regs) : (s.startClose r).closing = some s.nextTicket := rfl
@[simp] theorem State.startClose_busy (r : Regs) : (s.startClose r).busy = s.busy := rfl
@[simp] theorem State.startClose_outside (r : Regs) : (s.startClose r).outside = s.outside := rfl
@[simp] theorem State.startClose_handles (r : Regs) : (s.startClose r).handles = s.handles := rfl
@[simp] theorem State.startClose_nextTicket (r : Regs) : (s.startClose r).nextTicket = s.nextTicket + 1 := rfl
@[simp] theorem State.startClose_inbox (r : Regs) : (s.startClose r).inbox = s.inbox := rfl
@[simp] theorem State.startClose_replies (r : Regs) : (s.startClose r).replies = s.replies := rfl
@[simp] theorem State.startClose_calls (r : Regs) : (s.startClose r).calls = s.calls ++ [.close r.handle] := rfl
@[simp] theorem State.startClose_wire (r : Regs) : (s.startClose r).wire = s.wire := rfl
@[simp] theorem State.startClose_trace (r : Regs) : (s.startClose r).trace = s.trace := rfl

/-! ### callExchange -/

@[simp] theorem State.callExchange_session (c : Ctx) (link : Option Link) (live : Bool) : (s.callExchange c link live).session = s.session := by cases link <;> rfl
@[simp] theorem State.callExchange_contexts (c : Ctx) (link : Option Link) (live : Bool) : (s.callExchange c link live).contexts = setPhase c.ticket (.exch link live) s.contexts := by cases link <;> rfl
@[simp] theorem State.callExchange_opening (c : Ctx) (link : Option Link) (live : Bool) : (s.callExchange c link live).opening = s.opening := by cases link <;> rfl
@[simp] theorem State.callExchange_closing (c : Ctx) (link : Option Link) (live : Bool) : (s.callExchange c link live).closing = s.closing := by cases link <;> rfl
@[simp] theorem State.callExchange_busy (c : Ctx) (link : Option Link) (live : Bool) : (s.callExchange c link live).busy = (s.lockLink link).busy := by cases link <;> rfl
@[simp] theorem State.callExchange_outside (c : Ctx) (link : Option Link) (live : Bool) : (s.callExchange c link live).outside = s.outside := by cases link <;> rfl
@[simp] theorem State.callExchange_handles (c : Ctx) (link : Option Link) (live : Bool) : (s.callExchange c link live).handles = s.handles := by cases link <;> rfl
@[simp] theorem State.callExchange_nextTicket (c : Ctx) (link : Option Link) (live : Bool) : (s.callExchange c link live).nextTicket = s.nextTicket := by cases link <;> rfl
@[simp] theorem State.callExchange_inbox (c : Ctx) (link : Option Link) (live : Bool) : (s.callExchange c link live).inbox = s.inbox := by cases link <;> rfl
@[simp] theorem State.callExchange_replies (c : Ctx) (link : Option Link) (live : Bool) : (s.callExchange c link live).replies = s.replies := by cases link <;> rfl
@[simp] theorem State.callExchange_calls (c : Ctx) (link : Option Link) (live : Bool) : (s.callExchange c link live).calls = s.calls ++ [.exchange c.handle c.cmd] := by cases link <;> rfl
@[simp] theorem State.callExchange_wire (c : Ctx) (link : Option Link) (live : Bool) : (s.callExchange c link live).wire = s.wire ++ sentFrames link live c.cmd := by cases link <;> rfl
@[simp] theorem State.callExchange_trace (c : Ctx) (link : Option Link) (live : Bool) : (s.callExchange c link live).trace = s.trace := by cases link <;> rfl

/-! ### replied -/

@[simp] theorem State.replied_session (r : Reply) : (s.replied r).session = s.session := rfl
@[simp] theorem State.replied_contexts (r : Reply) : (s.replied r).contexts = s.contexts := rfl
@[simp] theorem State.replied_opening (r : Reply) : (s.replied r).opening = s.opening := rfl
@[simp] theorem State.replied_closing (r : Reply) : (s.replied r).closing = s.closing := rfl
@[simp] theorem State.replied_busy (r : Reply) : (s.replied r).busy = s.busy := rfl
@[simp] theorem State.replied_outside (r : Reply) : (s.replied r).outside = s.outside := rfl
@[simp] theorem State.replied_handles (r : Reply) : (s.replied r).handles = s.handles := rfl
@[simp] theorem State.replied_nextTicket (r : Reply) : (s.replied r).nextTicket = s.nextTicket + 1 := rfl
@[simp] theorem State.replied_inbox (r : Reply) : (s.replied r).inbox = s.inbox := rfl
@[simp] theorem State.replied_replies (r : Reply) : (s.replied r).replies = s.replies ++ [(s.nextTicket, r)] := rfl
@[simp] theorem State.replied_calls (r : Reply) : (s.replied r).calls = s.calls := rfl
@[simp] theorem State.replied_wire (r : Reply) : (s.replied r).wire = s.wire := rfl
@[simp] theorem State.replied_trace (r : Reply) : (s.replied r).trace = s.trace := rfl

/-! ### Locks and handles, whose update depends on the link or the entry -/

@[simp] theorem State.lockLink_busy_some (l : Link) : (s.lockLink (some l)).busy = takeLink l s.busy := rfl
@[simp] theorem State.lockLink_busy_none : (s.lockLink none).busy = s.busy := rfl
@[simp] theorem State.unlockLink_busy_some (l : Link) : (s.unlockLink (some l)).busy = s.busy.erase l := rfl
@[simp] theorem State.unlockLink_busy_none : (s.unlockLink none).busy = s.busy := rfl

/-- `replyNow` is the state `replied` writes out. -/
theorem State.replyNow_eq_replied (r : Reply) : s.replyNow r = s.replied r := rfl

end Sys2Proof.Machine
end

