-- ==== Sys2Proof/Laws/Contexts.lean ====
section
/-! SUPPORT. The list of request contexts: finding one by its ticket, setting its phase, dropping it. -/

namespace Sys2Proof.Machine

/-- No context of `cs` has ticket `t`. -/
abbrev NoTicket (t : Nat) (cs : List Ctx) : Prop := ∀ c ∈ cs, c.ticket ≠ t

theorem noTicket_nil (t : Nat) : NoTicket t [] := fun _ h => absurd h List.not_mem_nil

theorem setPhase_of_noTicket {t : Nat} {cs : List Ctx} (h : NoTicket t cs) (p : Phase) : setPhase t p cs = cs := by
  induction cs with
  | nil => rfl
  | cons c rest ih =>
    have hc : c.ticket ≠ t := h c (by simp)
    have := ih (fun d hd => h d (by simp [hd]))
    simp only [setPhase] at this
    simp [setPhase, hc, this]

theorem dropCtx_of_noTicket {t : Nat} {cs : List Ctx} (h : NoTicket t cs) : dropCtx t cs = cs := by
  simpa [dropCtx, List.filter_eq_self] using h

theorem setPhase_append (t : Nat) (p : Phase) (cs ds : List Ctx) :
    setPhase t p (cs ++ ds) = setPhase t p cs ++ setPhase t p ds := by
  simp [setPhase]

theorem dropCtx_append (t : Nat) (cs ds : List Ctx) : dropCtx t (cs ++ ds) = dropCtx t cs ++ dropCtx t ds := by
  simp [dropCtx]

theorem setPhase_cons_same {t : Nat} (c : Ctx) (hc : c.ticket = t) (p : Phase) (cs : List Ctx) :
    setPhase t p (c :: cs) = { c with phase := p } :: setPhase t p cs := by
  simp [setPhase, hc]

theorem dropCtx_cons_same {t : Nat} (c : Ctx) (hc : c.ticket = t) (cs : List Ctx) :
    dropCtx t (c :: cs) = dropCtx t cs := by
  simp [dropCtx, hc]

/-- Around the one context of a ticket. -/
theorem setPhase_split {t : Nat} {l r : List Ctx} {c : Ctx} (hl : NoTicket t l) (hr : NoTicket t r) (hc : c.ticket = t)
    (p : Phase) : setPhase t p (l ++ c :: r) = l ++ { c with phase := p } :: r := by
  rw [setPhase_append, setPhase_cons_same c hc, setPhase_of_noTicket hl, setPhase_of_noTicket hr]

theorem dropCtx_split {t : Nat} {l r : List Ctx} {c : Ctx} (hl : NoTicket t l) (hr : NoTicket t r) (hc : c.ticket = t) :
    dropCtx t (l ++ c :: r) = l ++ r := by
  rw [dropCtx_append, dropCtx_cons_same c hc, dropCtx_of_noTicket hl, dropCtx_of_noTicket hr]

/-- A context whose ticket occurs at most once stands alone among the others. -/
theorem exists_split {t : Nat} {cs : List Ctx} {c : Ctx} (hc : c ∈ cs) (ht : c.ticket = t)
    (hone : cs.countP (fun d => decide (d.ticket = t)) ≤ 1) :
    ∃ l r, cs = l ++ c :: r ∧ NoTicket t l ∧ NoTicket t r := by
  obtain ⟨l, r, rfl⟩ := List.append_of_mem hc
  refine ⟨l, r, rfl, ?_, ?_⟩ <;>
  · intro d hd hdt
    have hpos := List.countP_pos_iff (p := fun d : Ctx => decide (d.ticket = t)) |>.2 ⟨d, hd, by simpa using hdt⟩
    simp only [List.countP_append, List.countP_cons, ht, decide_true, if_true] at hone
    omega

/-- What `findCtx` finds is in flight under that ticket. -/
theorem findCtx_some {s : State} {t : Nat} {c : Ctx} (h : s.findCtx t = some c) : c ∈ s.contexts ∧ c.ticket = t := by
  have h1 := List.mem_of_find?_eq_some h
  have h2 := List.find?_some h
  exact ⟨h1, by simpa using h2⟩

theorem findCtx_of_split {s : State} {t : Nat} {l r : List Ctx} {c : Ctx} (hs : s.contexts = l ++ c :: r)
    (hl : NoTicket t l) (hc : c.ticket = t) : s.findCtx t = some c := by
  have hnone : l.find? (fun c => decide (c.ticket = t)) = none := by
    simpa [List.find?_eq_none] using hl
  simp [State.findCtx, hs, List.find?_append, hnone, hc]

theorem findCtx_of_mem {s : State} {t : Nat} {c : Ctx} (hc : c ∈ s.contexts) (ht : c.ticket = t)
    (hone : s.contexts.countP (fun d => decide (d.ticket = t)) ≤ 1) : s.findCtx t = some c := by
  obtain ⟨l, r, hs, hl, -⟩ := exists_split hc ht hone
  exact findCtx_of_split hs hl ht

theorem findCtx_none {s : State} {t : Nat} (h : NoTicket t s.contexts) : s.findCtx t = none := by
  simpa [State.findCtx, List.find?_eq_none] using h

/-- Contexts of other tickets are untouched. -/
theorem mem_setPhase_other {t : Nat} {p : Phase} {cs : List Ctx} {c : Ctx} (hc : c.ticket ≠ t) :
    c ∈ setPhase t p cs ↔ c ∈ cs := by
  simp only [setPhase, List.mem_map]
  constructor
  · rintro ⟨d, hd, he⟩
    by_cases hdt : d.ticket = t
    · simp only [hdt, if_true] at he
      exact absurd (by rw [← he]) hc
    · simp only [hdt, if_false] at he
      exact he ▸ hd
  · intro h
    exact ⟨c, h, by simp [hc]⟩

theorem mem_dropCtx {t : Nat} {cs : List Ctx} {c : Ctx} : c ∈ dropCtx t cs ↔ c ∈ cs ∧ c.ticket ≠ t := by
  simp [dropCtx]

/-- Every context after `setPhase` is a context of before, with the phase set if it has the ticket. -/
theorem mem_setPhase {t : Nat} {p : Phase} {cs : List Ctx} {c : Ctx} (h : c ∈ setPhase t p cs) :
    ∃ d ∈ cs, (d.ticket = t ∧ c = { d with phase := p }) ∨ (d.ticket ≠ t ∧ c = d) := by
  simp only [setPhase, List.mem_map] at h
  obtain ⟨d, hd, he⟩ := h
  refine ⟨d, hd, ?_⟩
  by_cases hdt : d.ticket = t
  · exact Or.inl ⟨hdt, by simpa [hdt] using he.symm⟩
  · exact Or.inr ⟨hdt, by simpa [hdt] using he.symm⟩

@[simp] theorem countP_ticket_setPhase (t u : Nat) (p : Phase) (cs : List Ctx) :
    (setPhase t p cs).countP (fun c => decide (c.ticket = u)) = cs.countP (fun c => decide (c.ticket = u)) := by
  induction cs with
  | nil => rfl
  | cons c rest ih =>
    simp only [setPhase] at ih
    by_cases hc : c.ticket = t <;> simp [setPhase, hc, List.countP_cons, ih]

@[simp] theorem isSread_withPhase (c : Ctx) (p : Phase) : ({ c with phase := p } : Ctx).isSread = c.isSread := rfl

@[simp] theorem any_isSread_setPhase (t : Nat) (p : Phase) (cs : List Ctx) :
    (setPhase t p cs).any (·.isSread) = cs.any (·.isSread) := by
  induction cs with
  | nil => rfl
  | cons c rest ih =>
    simp only [setPhase, List.map_cons, List.any_cons] at ih ⊢
    rw [ih]
    by_cases hc : c.ticket = t
    · rw [if_pos hc]; rfl
    · rw [if_neg hc]

/-- A phase set twice is the second one. -/
theorem setPhase_setPhase (t : Nat) (p q : Phase) (cs : List Ctx) : setPhase t q (setPhase t p cs) = setPhase t q cs := by
  induction cs with
  | nil => rfl
  | cons c rest ih =>
    simp only [setPhase, List.map_map, List.map_cons] at ih ⊢
    by_cases hc : c.ticket = t <;> simp [hc, ih]

/-- Dropping a context forgets its phase. -/
theorem dropCtx_setPhase (t : Nat) (p : Phase) (cs : List Ctx) : dropCtx t (setPhase t p cs) = dropCtx t cs := by
  induction cs with
  | nil => rfl
  | cons c rest ih =>
    simp [dropCtx, setPhase] at ih
    by_cases hc : c.ticket = t <;> simp [dropCtx, setPhase, hc, ih]

theorem moveTo_moveTo (t : Nat) (p q : Phase) (s : State) : (s.moveTo t p).moveTo t q = s.moveTo t q := by
  simp [State.moveTo, setPhase_setPhase]

theorem moveTo_finish (t : Nat) (p : Phase) (r : Reply) (s : State) : (s.moveTo t p).finish t r = s.finish t r := by
  simp [State.moveTo, State.finish, dropCtx_setPhase]

/-- A request that has moved is found in its new phase. -/
theorem findCtx_moveTo {s : State} {t : Nat} {c : Ctx} (h : s.findCtx t = some c) (p : Phase) :
    (s.moveTo t p).findCtx t = some { c with phase := p } := by
  have ht : c.ticket = t := (findCtx_some h).2
  simp only [State.findCtx, State.moveTo, setPhase, List.find?_map] at h ⊢
  have he : ((fun d : Ctx => decide (d.ticket = t)) ∘ fun d : Ctx => if d.ticket = t then { d with phase := p } else d)
      = fun d : Ctx => decide (d.ticket = t) := by
    funext d
    by_cases hd : d.ticket = t <;> simp [hd]
  rw [he, h]
  simp [ht]

end Sys2Proof.Machine
end

