-- ==== Sys2Proof/Laws/Tables.lean ====
section
/-! SUPPORT. The handle table and the link sets: read after write, and every update keeps the canonical form. -/

namespace Sys2Proof.Machine

/-! ## The handle table -/

/-- The handles of a table stand in rising order. -/
abbrev HandlesSorted (t : List (Handle × HandleEntry)) : Prop := (t.map Prod.fst).Pairwise (· < ·)

@[simp] theorem findHandle_putHandle_same (h : Handle) (e : HandleEntry) (t : List (Handle × HandleEntry)) :
    findHandle h (putHandle h e t) = some e := by
  induction t with
  | nil => simp [putHandle, findHandle]
  | cons x rest ih =>
    obtain ⟨k, e'⟩ := x
    by_cases hlt : h < k
    · simp [putHandle, findHandle, hlt]
    · by_cases heq : h = k
      · simp [putHandle, findHandle, heq]
      · simp [putHandle, findHandle, hlt, heq, ih]

theorem findHandle_putHandle_other {h k : Handle} (hk : k ≠ h) (e : HandleEntry) (t : List (Handle × HandleEntry)) :
    findHandle k (putHandle h e t) = findHandle k t := by
  induction t with
  | nil => simp [putHandle, findHandle, hk]
  | cons x rest ih =>
    obtain ⟨j, e'⟩ := x
    by_cases hlt : h < j
    · simp [putHandle, findHandle, hlt, hk]
    · by_cases heq : h = j
      · subst heq
        simp [putHandle, findHandle, hk]
      · simp [putHandle, findHandle, hlt, heq, ih]

theorem mem_map_fst_putHandle (h : Handle) (e : HandleEntry) (t : List (Handle × HandleEntry)) (x : Handle) :
    x ∈ (putHandle h e t).map Prod.fst → x = h ∨ x ∈ t.map Prod.fst := by
  induction t with
  | nil => simp [putHandle]
  | cons y rest ih =>
    obtain ⟨j, e'⟩ := y
    by_cases hlt : h < j
    · simp [putHandle, hlt]
    · by_cases heq : h = j
      · subst heq
        simp [putHandle]
      · simp only [putHandle, hlt, heq, if_false, List.map_cons, List.mem_cons]
        rintro (rfl | hx)
        · exact Or.inr (Or.inl rfl)
        · rcases ih hx with hx | hx
          · exact Or.inl hx
          · exact Or.inr (Or.inr hx)

/-- Setting an entry keeps the table in rising order. -/
theorem putHandle_sorted (h : Handle) (e : HandleEntry) {t : List (Handle × HandleEntry)} (ht : HandlesSorted t) :
    HandlesSorted (putHandle h e t) := by
  induction t with
  | nil => simp [putHandle, HandlesSorted]
  | cons y rest ih =>
    obtain ⟨j, e'⟩ := y
    simp only [HandlesSorted, List.map_cons, List.pairwise_cons] at ht
    by_cases hlt : h < j
    · simp only [HandlesSorted, putHandle, hlt, if_true, List.map_cons, List.pairwise_cons, List.mem_cons]
      refine ⟨?_, ht.1, ht.2⟩
      rintro x (rfl | hx)
      · exact hlt
      · exact lt_trans hlt (ht.1 x hx)
    · by_cases heq : h = j
      · subst heq
        simpa [HandlesSorted, putHandle] using ht
      · simp only [HandlesSorted, putHandle, hlt, heq, if_false, List.map_cons, List.pairwise_cons]
        refine ⟨fun x hx => ?_, ih ht.2⟩
        rcases mem_map_fst_putHandle h e rest x hx with rfl | hx
        · exact lt_of_le_of_ne (not_lt.1 hlt) (Ne.symm heq)
        · exact ht.1 x hx

theorem releaseHandle_handles_some {s : State} {h : Handle} {l : Link} (hl : s.linkOf h = some l) :
    (s.releaseHandle h).handles = putHandle h ⟨l, false⟩ s.handles := by
  simp [State.releaseHandle, hl]

theorem releaseHandle_handles_none {s : State} {h : Handle} (hl : s.linkOf h = none) :
    (s.releaseHandle h).handles = s.handles := by
  simp [State.releaseHandle, hl]

theorem releaseHandle_sorted {s : State} (h : Handle) (hs : HandlesSorted s.handles) :
    HandlesSorted (s.releaseHandle h).handles := by
  cases hl : s.linkOf h with
  | none => rwa [releaseHandle_handles_none hl]
  | some l => rw [releaseHandle_handles_some hl]; exact putHandle_sorted _ _ hs

theorem findHandle_releaseHandle_other {s : State} {h k : Handle} (hk : k ≠ h) :
    findHandle k (s.releaseHandle h).handles = findHandle k s.handles := by
  cases hl : s.linkOf h with
  | none => rw [releaseHandle_handles_none hl]
  | some l => rw [releaseHandle_handles_some hl, findHandle_putHandle_other hk]

theorem linkOf_of_find {s : State} {h : Handle} {e : HandleEntry} (hf : findHandle h s.handles = some e) :
    s.linkOf h = some e.link := by
  simp [State.linkOf, hf]

theorem isOpen_of_find {s : State} {h : Handle} {e : HandleEntry} (hf : findHandle h s.handles = some e) :
    s.isOpen h = e.isOpen := by
  simp [State.isOpen, hf]

/-! ## The link sets -/

@[simp] theorem mem_takeLink {k l : Link} {ls : List Link} : k ∈ takeLink l ls ↔ k = l ∨ k ∈ ls := by
  simp [takeLink, List.mem_orderedInsert]

/-- Taking a link that was not in the set and freeing it again gives the set back. -/
@[simp] theorem erase_takeLink {l : Link} {ls : List Link} (h : l ∉ ls) : (takeLink l ls).erase l = ls :=
  List.erase_orderedInsert_of_notMem h

theorem takeLink_sorted {l : Link} {ls : List Link} (hs : ls.Pairwise (· < ·)) (h : l ∉ ls) :
    (takeLink l ls).Pairwise (· < ·) := by
  induction ls with
  | nil => simp [takeLink]
  | cons k rest ih =>
    simp only [List.pairwise_cons] at hs
    simp only [List.mem_cons, not_or] at h
    by_cases hlk : l ≤ k
    · simp only [takeLink, List.orderedInsert, hlk, if_true, List.pairwise_cons, List.mem_cons]
      have hlt : l < k := lt_of_le_of_ne hlk h.1
      refine ⟨?_, hs.1, hs.2⟩
      rintro x (rfl | hx)
      · exact hlt
      · exact lt_trans hlt (hs.1 x hx)
    · simp only [takeLink, List.orderedInsert, hlk, if_false, List.pairwise_cons]
      refine ⟨fun x hx => ?_, ih hs.2 h.2⟩
      rcases (List.mem_orderedInsert (r := (· ≤ ·))).1 hx with rfl | hx
      · exact not_le.1 hlk
      · exact hs.1 x hx

theorem erase_sorted {ls : List Link} (l : Link) (hs : ls.Pairwise (· < ·)) : (ls.erase l).Pairwise (· < ·) :=
  List.Pairwise.sublist List.erase_sublist hs

theorem mem_erase_sorted {k l : Link} {ls : List Link} (hs : ls.Pairwise (· < ·)) :
    k ∈ ls.erase l ↔ k ≠ l ∧ k ∈ ls := by
  have hn : ls.Nodup := hs.imp (fun h => ne_of_lt h)
  exact hn.mem_erase_iff

@[simp] theorem linkBusy_some {s : State} {l : Link} : s.linkBusy (some l) = decide (l ∈ s.busy) := rfl
@[simp] theorem linkBusy_none {s : State} : s.linkBusy none = false := rfl

end Sys2Proof.Machine
end

