-- ==== Sys2Proof/Laws/Units.lean ====
section
/-! SUPPORT. One lemma per unit: what ENCODE, DECODE, SCALE and the length check of XFER answer. -/

namespace Sys2Proof.Machine

/-! ## ENCODE -/

theorem encodeUnit_legal {chip : ChipModel} {ch : Int} (h : channelLegal chip ch) :
    encodeUnit chip ch = .ok (commandFrame chip ch.toNat) := by
  have h' : ¬ (ch < 0 ∨ (maxChannel chip : Int) < ch) := by
    simp only [channelLegal] at h
    omega
  simp [encodeUnit, h']

theorem encodeUnit_illegal {chip : ChipModel} {ch : Int} (h : ¬ channelLegal chip ch) :
    encodeUnit chip ch = .error (.invalidChannel ch chip) := by
  have h' : ch < 0 ∨ (maxChannel chip : Int) < ch := by
    simp only [channelLegal] at h
    omega
  simp [encodeUnit, h']

/-- ENCODE answers in one of two ways. -/
theorem encodeUnit_cases (chip : ChipModel) (ch : Int) :
    (channelLegal chip ch ∧ encodeUnit chip ch = .ok (commandFrame chip ch.toNat)) ∨
    (¬ channelLegal chip ch ∧ encodeUnit chip ch = .error (.invalidChannel ch chip)) := by
  by_cases h : channelLegal chip ch
  · exact Or.inl ⟨h, encodeUnit_legal h⟩
  · exact Or.inr ⟨h, encodeUnit_illegal h⟩

/-- An ENCODE request is answered at once. -/
theorem encodeRequest_legal {chip : ChipModel} {ch : Int} (h : channelLegal chip ch) (s : State) :
    s.encodeRequest chip ch = s.replied (.ok (.command (commandFrame chip ch.toNat))) := by
  simp [State.encodeRequest, encodeUnit_legal h, State.replyNow_eq_replied]

theorem encodeRequest_illegal {chip : ChipModel} {ch : Int} (h : ¬ channelLegal chip ch) (s : State) :
    s.encodeRequest chip ch = s.replied (.fail (.invalidChannel ch chip)) := by
  simp [State.encodeRequest, encodeUnit_illegal h, State.replyNow_eq_replied]

/-! ## DECODE -/

@[simp] theorem decodeUnit_three (x b1 b2 : Byte) : decodeUnit [x, b1, b2] = .ok (codeOf b1 b2) := rfl

theorem decodeUnit_other {rsp : List Byte} (h : rsp.length ≠ 3) :
    decodeUnit rsp = .error (.malformedResponse rsp.length) := by
  match rsp, h with
  | [], _ => rfl
  | [_], _ => rfl
  | [_, _], _ => rfl
  | [_, _, _], h => exact absurd rfl h
  | _ :: _ :: _ :: _ :: _, _ => rfl

theorem eq_three_of_length {rsp : List Byte} (h : rsp.length = 3) : ∃ x b1 b2, rsp = [x, b1, b2] :=
  List.length_eq_three.1 h

/-- The two parts of the code do not overlap: the OR is an addition (30_encoding.md R88). -/
theorem codeOf_toNat (b1 b2 : Byte) : (codeOf b1 b2).toNat = 256 * (b1.toNat % 4) + b2.toNat := by
  have h2 : b2.toNat < 2 ^ 8 := b2.isLt
  have hm : b1.toNat &&& 3 = b1.toNat % 4 := Nat.and_two_pow_sub_one_eq_mod b1.toNat 2
  have hadd : (b1.toNat % 4) <<< 8 ||| b2.toNat = ((b1.toNat % 4) <<< 8) + b2.toNat :=
    (Nat.shiftLeft_add_eq_or_of_lt h2 _).symm
  simp only [codeOf, BitVec.toNat_ofNat, hm]
  rw [hadd, Nat.shiftLeft_eq]
  omega

/-! ## XFER's checks -/

@[simp] theorem acceptAnswer_failed : acceptAnswer .failed = .error (.transportError .exchangeFailed) := rfl

@[simp] theorem acceptAnswer_three (x b1 b2 : Byte) : acceptAnswer (.bytes [x, b1, b2]) = .ok [x, b1, b2] := rfl

theorem acceptAnswer_other {bs : List Byte} (h : bs.length ≠ 3) :
    acceptAnswer (.bytes bs) = .error (.transportError (.lengthMismatch bs.length)) := by
  simp [acceptAnswer, frameLen, h]

/-- What is accepted has three bytes (41_transaction_executor.md R134). -/
theorem acceptAnswer_ok {a : Answer} {bs : List Byte} (h : acceptAnswer a = .ok bs) : bs.length = 3 := by
  cases a with
  | bytes s =>
    by_cases hs : s.length = 3
    · simp [acceptAnswer, frameLen, hs] at h
      exact h ▸ hs
    · rw [acceptAnswer_other hs] at h
      cases h
  | handle _ => cases h
  | done => cases h
  | failed => cases h

/-- Only a TransportError comes out of the checks. -/
theorem acceptAnswer_error {a : Answer} {f : Failure} (h : acceptAnswer a = .error f) : ∃ c, f = .transportError c := by
  cases a with
  | bytes s =>
    by_cases hs : s.length = 3
    · simp [acceptAnswer, frameLen, hs] at h
    · rw [acceptAnswer_other hs] at h
      cases h
      exact ⟨_, rfl⟩
  | handle _ => cases h; exact ⟨_, rfl⟩
  | done => cases h; exact ⟨_, rfl⟩
  | failed => cases h; exact ⟨_, rfl⟩

/-! ## What an exchange hears -/

/-- An exchange hears only Bytes or Failed, and bytes only on a handle that was open. -/
theorem exchangeHears_some {live : Bool} {a heard : Answer} (h : exchangeHears live a = some heard) :
    heard = .failed ∨ (live = true ∧ ∃ bs, heard = .bytes bs ∧ a = .bytes bs) := by
  cases a <;> cases live <;> simp [exchangeHears] at h <;> subst h <;> simp

end Sys2Proof.Machine
end

