-- ==== Sys2Proof/Laws/Exchange.lean ====
section
/-! SUPPORT. Everything the steps of a request context can do, said once: `acquire_cases`, `exchangeAnswered_cases`,
`advance_cases`; and what a request does when its exchange is answered in the step that issues it. -/

namespace Sys2Proof.Machine

/-! ## Inversion -/

/-- Acquire is blocked, or calls Exchange. -/
theorem acquire_cases (s : State) (c : Ctx) :
    (s.linkBusy (s.linkOf c.handle) = true ∧ s.acquire c = s) ∨
    (s.linkBusy (s.linkOf c.handle) = false ∧
      s.acquire c = s.callExchange c (s.linkOf c.handle) (c.usable && s.isOpen c.handle)) := by
  cases h : s.linkBusy (s.linkOf c.handle) with
  | true => exact Or.inl ⟨rfl, by simp [State.acquire, h]⟩
  | false => exact Or.inr ⟨rfl, by simp [State.acquire, h]⟩

/-- What the own step of request `t` can do. -/
theorem advance_cases (s : State) (t : Nat) :
    s.advance t = s ∨
    (∃ c, s.findCtx t = some c ∧ c.phase = .wait ∧ s.linkBusy (s.linkOf c.handle) = false ∧
      s.advance t = s.callExchange c (s.linkOf c.handle) (c.usable && s.isOpen c.handle)) ∨
    (∃ c rsp code, s.findCtx t = some c ∧ c.phase = .decode rsp ∧ decodeUnit rsp = .ok code ∧
      s.advance t = s.moveTo t (.scale code)) ∨
    (∃ c rsp f, s.findCtx t = some c ∧ c.phase = .decode rsp ∧ decodeUnit rsp = .error f ∧
      s.advance t = s.finish t (.fail f)) ∨
    (∃ c code v, s.findCtx t = some c ∧ c.phase = .scale code ∧ c.origin.vals = some v ∧
      s.advance t = s.finish t (.ok (.reading (scaleUnit code v.vref)))) := by
  cases hf : s.findCtx t with
  | none => exact Or.inl (by simp [State.advance, hf])
  | some c =>
    cases hp : c.phase with
    | wait =>
      rcases acquire_cases s c with ⟨_, he⟩ | ⟨hb, he⟩
      · exact Or.inl (by simp [State.advance, hf, hp, he])
      · exact Or.inr (Or.inl ⟨c, rfl, hp, hb, by simp [State.advance, hf, hp, he]⟩)
    | exch link live => exact Or.inl (by simp [State.advance, hf, hp])
    | decode rsp =>
      cases hd : decodeUnit rsp with
      | ok code => exact Or.inr (Or.inr (Or.inl ⟨c, rsp, code, rfl, hp, hd, by simp [State.advance, hf, hp, hd]⟩))
      | error f =>
        exact Or.inr (Or.inr (Or.inr (Or.inl ⟨c, rsp, f, rfl, hp, hd, by simp [State.advance, hf, hp, hd]⟩)))
    | scale code =>
      cases hv : c.origin.vals with
      | none => exact Or.inl (by simp [State.advance, hf, hp, hv])
      | some v =>
        exact Or.inr (Or.inr (Or.inr (Or.inr ⟨c, code, v, rfl, hp, hv, by simp [State.advance, hf, hp, hv]⟩)))

/-- What the answer to an exchange can do: nothing, where no exchange waits for it; end the request with a TransportError;
end an XFER with the bytes; or send a READ or SREAD on to DECODE. In the last three the lock is released first. -/
theorem exchangeAnswered_cases (s : State) (t : Nat) (a : Answer) :
    s.exchangeAnswered t a = s ∨
    ∃ c link live heard, s.findCtx t = some c ∧ c.phase = .exch link live ∧ exchangeHears live a = some heard ∧
      ((∃ cause, acceptAnswer heard = .error (.transportError cause) ∧
          s.exchangeAnswered t a
            = ((s.unlockLink link).traceExchange link heard).finish t (.fail (.transportError cause))) ∨
       (∃ bs, acceptAnswer heard = .ok bs ∧ c.origin = .xfer ∧
          s.exchangeAnswered t a = ((s.unlockLink link).traceExchange link heard).finish t (.ok (.response bs))) ∨
       (∃ bs, acceptAnswer heard = .ok bs ∧ c.origin ≠ .xfer ∧
          s.exchangeAnswered t a = ((s.unlockLink link).traceExchange link heard).moveTo t (.decode bs))) := by
  cases hf : s.findCtx t with
  | none => exact Or.inl (by simp [State.exchangeAnswered, hf])
  | some c =>
    have ht : c.ticket = t := (findCtx_some hf).2
    cases hp : c.phase with
    | wait => exact Or.inl (by simp [State.exchangeAnswered, hf, hp])
    | decode rsp => exact Or.inl (by simp [State.exchangeAnswered, hf, hp])
    | scale code => exact Or.inl (by simp [State.exchangeAnswered, hf, hp])
    | exch link live =>
      cases hh : exchangeHears live a with
      | none => exact Or.inl (by simp [State.exchangeAnswered, hf, hp, hh])
      | some heard =>
        refine Or.inr ⟨c, link, live, heard, rfl, hp, hh, ?_⟩
        cases ha : acceptAnswer heard with
        | error f =>
          obtain ⟨cause, rfl⟩ := acceptAnswer_error ha
          exact Or.inl ⟨cause, rfl, by simp [State.exchangeAnswered, hf, hp, hh, ha]⟩
        | ok bs =>
          cases ho : c.origin with
          | xfer =>
            exact Or.inr (Or.inl ⟨bs, rfl, rfl, by simp [State.exchangeAnswered, hf, hp, hh, ha, State.received, ho, ht]⟩)
          | read v =>
            exact Or.inr (Or.inr ⟨bs, rfl, by simp, by
              simp [State.exchangeAnswered, hf, hp, hh, ha, State.received, ho, ht]⟩)
          | sread v =>
            exact Or.inr (Or.inr ⟨bs, rfl, by simp, by
              simp [State.exchangeAnswered, hf, hp, hh, ha, State.received, ho, ht]⟩)

/-- A request runs on in the step that issues it, or its context waits. -/
theorem runIfAnswered_cases (s : State) (t : Nat) :
    s.runIfAnswered t = s ∨
    ∃ a rest, s.inbox = .move (.answer t a) :: rest ∧
      s.runIfAnswered t
        = State.advance t (State.advance t (State.exchangeAnswered t a (State.advance t { s with inbox := rest }))) := by
  cases hi : s.inbox with
  | nil => exact Or.inl (by simp [State.runIfAnswered, hi])
  | cons e rest =>
    cases e with
    | request w => exact Or.inl (by simp [State.runIfAnswered, hi])
    | move m =>
      cases m with
      | answer t' a =>
        by_cases htt : t' = t
        · subst htt
          exact Or.inr ⟨a, rest, rfl, by simp [State.runIfAnswered, hi]⟩
        · exact Or.inl (by simp [State.runIfAnswered, hi, htt])
      | advance _ => exact Or.inl (by simp [State.runIfAnswered, hi])
      | outsideOpen _ _ => exact Or.inl (by simp [State.runIfAnswered, hi])
      | outsideClose _ => exact Or.inl (by simp [State.runIfAnswered, hi])
      | outsideTake _ => exact Or.inl (by simp [State.runIfAnswered, hi])
      | outsideFree _ => exact Or.inl (by simp [State.runIfAnswered, hi])

theorem runIfAnswered_waits {s : State} {t : Nat} (h : ∀ a rest, s.inbox ≠ .move (.answer t a) :: rest) :
    s.runIfAnswered t = s := by
  rcases runIfAnswered_cases s t with he | ⟨a, rest, hi, -⟩
  · exact he
  · exact absurd hi (h a rest)

/-- A request that waits for a busy link has no step, and an answer to it is without effect. -/
theorem blocked {s : State} {t : Nat} {c : Ctx} (hf : s.findCtx t = some c) (hp : c.phase = .wait)
    (hb : s.linkBusy (s.linkOf c.handle) = true) : s.advance t = s ∧ ∀ a, s.exchangeAnswered t a = s := by
  simp [State.advance, State.exchangeAnswered, State.acquire, hf, hp, hb]

/-! ## A new request -/

/-- The next ticket names no context in flight. -/
theorem noTicket_of_fresh {s : State} (h : s.Fresh) : NoTicket s.nextTicket s.contexts :=
  fun c hc => Nat.ne_of_lt (h.1 c hc)

/-- The context of a request just admitted. -/
theorem findCtx_last {s : State} {cs : List Ctx} {c : Ctx} {t : Nat} (hs : s.contexts = cs ++ [c]) (hcs : NoTicket t cs)
    (hc : c.ticket = t) : s.findCtx t = some c :=
  findCtx_of_split (r := []) hs hcs hc

theorem setPhase_last {cs : List Ctx} {c : Ctx} {t : Nat} (hcs : NoTicket t cs) (hc : c.ticket = t) (p : Phase) :
    setPhase t p (cs ++ [c]) = cs ++ [{ c with phase := p }] :=
  setPhase_split hcs (noTicket_nil t) hc p

theorem dropCtx_last {cs : List Ctx} {c : Ctx} {t : Nat} (hcs : NoTicket t cs) (hc : c.ticket = t) :
    dropCtx t (cs ++ [c]) = cs := by
  simpa using dropCtx_split (r := []) hcs (noTicket_nil t) hc

/-! ## The steps of a request look at no event to come -/

/-- `s` with other events to come. -/
def State.withInbox (events : List Event) (s : State) : State := { s with inbox := events }

theorem advance_withInbox (s : State) (t : Nat) (events : List Event) :
    (s.withInbox events).advance t = (s.advance t).withInbox events := by
  cases h : s.findCtx t with
  | none =>
    have h' : (s.withInbox events).findCtx t = none := h
    simp only [State.advance, h, h']
  | some c =>
    have h' : (s.withInbox events).findCtx t = some c := h
    simp only [State.advance, h, h']
    cases c.phase with
    | wait =>
      have h1 : (s.withInbox events).linkOf c.handle = s.linkOf c.handle := rfl
      have h2 : (s.withInbox events).linkBusy (s.linkOf c.handle) = s.linkBusy (s.linkOf c.handle) := rfl
      simp only [State.acquire, h1, h2]
      cases s.linkBusy (s.linkOf c.handle) with
      | true => rfl
      | false => cases s.linkOf c.handle <;> rfl
    | exch _ _ => rfl
    | decode rsp => simp only []; cases decodeUnit rsp <;> rfl
    | scale code => simp only []; cases c.origin.vals <;> rfl

/-- The own step of a request leaves the events to come alone. -/
theorem advance_inbox (s : State) (t : Nat) : (s.advance t).inbox = s.inbox := by
  rcases advance_cases s t with h | ⟨c, -, -, -, h⟩ | ⟨c, rsp, code, -, -, -, h⟩ | ⟨c, rsp, f, -, -, -, h⟩ |
      ⟨c, code, v, -, -, -, h⟩ <;>
    simp [h]

theorem exchangeAnswered_withInbox (s : State) (t : Nat) (a : Answer) (events : List Event) :
    (s.withInbox events).exchangeAnswered t a = (s.exchangeAnswered t a).withInbox events := by
  cases h : s.findCtx t with
  | none =>
    have h' : (s.withInbox events).findCtx t = none := h
    simp only [State.exchangeAnswered, h, h']
  | some c =>
    have h' : (s.withInbox events).findCtx t = some c := h
    simp only [State.exchangeAnswered, h, h']
    cases c.phase with
    | wait => rfl
    | decode _ => rfl
    | scale _ => rfl
    | exch link live =>
      simp only []
      cases exchangeHears live a with
      | none => rfl
      | some heard =>
        simp only []
        cases acceptAnswer heard with
        | error f => cases link <;> rfl
        | ok bs =>
          simp only [State.received]
          cases c.origin <;> cases link <;> rfl

end Sys2Proof.Machine
end

