-- ==== Sys2Proof/Laws/PerInstr.lean ====
section
/-! SUPPORT. Statements made of every instruction, one lemma per constructor. -/

namespace Sys2Proof.Laws.TableRow

/-- The word of an instruction has the bits that spec/opcode_table.json fixes for its row: as many of them as the row has,
and under the row's mask the row's match. -/
def Statement (i : Instr) : Prop :=
  (encode i).tableBits.1 = i.tableRow.1 ∧ (encode i).tableBits.2 &&& i.tableRow.2.2 = i.tableRow.2.1

theorem configure (chip : BitVec 2) (chDefault : Int) (clockHz : Int) (vref : Option NumT) (mode : SpiMode) : Statement (.configure chip chDefault clockHz vref mode) := by
  simp [Statement, Sys2Proof.encode, ReqWord.tableBits, Instr.tableRow]

theorem sread (ch : Option Int) : Statement (.sread ch) := by
  simp [Statement, Sys2Proof.encode, ReqWord.tableBits, Instr.tableRow]

theorem close : Statement (.close) := by
  simp [Statement, Sys2Proof.encode, ReqWord.tableBits, Instr.tableRow]

theorem read (chip : ChipModel) (ch : Int) (vref : NumT) (handle : Handle) : Statement (.read chip ch vref handle) := by
  simp [Statement, Sys2Proof.encode, ReqWord.tableBits, Instr.tableRow]

theorem encode (chip : ChipModel) (ch : Int) : Statement (.encode chip ch) := by
  simp [Statement, Sys2Proof.encode, ReqWord.tableBits, Instr.tableRow]

theorem xfer (cmd : Frame) (handle : Handle) : Statement (.xfer cmd handle) := by
  simp [Statement, Sys2Proof.encode, ReqWord.tableBits, Instr.tableRow]

theorem decode (rsp : List Byte) : Statement (.decode rsp) := by
  simp [Statement, Sys2Proof.encode, ReqWord.tableBits, Instr.tableRow]

theorem scale (code : Code) (vref : NumT) : Statement (.scale code vref) := by
  simp [Statement, Sys2Proof.encode, ReqWord.tableBits, Instr.tableRow]

theorem cmd24Mcp3002 (c : BitVec 1) : Statement (.cmd24Mcp3002 c) := by
  revert c; simp only [Statement]; decide

theorem cmd24Mcp3004 (cc : BitVec 2) : Statement (.cmd24Mcp3004 cc) := by
  revert cc; simp only [Statement]; decide

theorem cmd24Mcp3008 (ccc : BitVec 3) : Statement (.cmd24Mcp3008 ccc) := by
  revert ccc; simp only [Statement]; decide

theorem cmd24Mcp3002Ch0 : Statement (.cmd24Mcp3002Ch0) := by
  simp [Statement, Sys2Proof.encode, ReqWord.tableBits, Instr.tableRow]

theorem cmd24Mcp3002Ch1 : Statement (.cmd24Mcp3002Ch1) := by
  simp [Statement, Sys2Proof.encode, ReqWord.tableBits, Instr.tableRow]

theorem cmd24Mcp3004Ch0 : Statement (.cmd24Mcp3004Ch0) := by
  simp [Statement, Sys2Proof.encode, ReqWord.tableBits, Instr.tableRow]

theorem cmd24Mcp3004Ch1 : Statement (.cmd24Mcp3004Ch1) := by
  simp [Statement, Sys2Proof.encode, ReqWord.tableBits, Instr.tableRow]

theorem cmd24Mcp3004Ch2 : Statement (.cmd24Mcp3004Ch2) := by
  simp [Statement, Sys2Proof.encode, ReqWord.tableBits, Instr.tableRow]

theorem cmd24Mcp3004Ch3 : Statement (.cmd24Mcp3004Ch3) := by
  simp [Statement, Sys2Proof.encode, ReqWord.tableBits, Instr.tableRow]

theorem cmd24Mcp3008Ch0 : Statement (.cmd24Mcp3008Ch0) := by
  simp [Statement, Sys2Proof.encode, ReqWord.tableBits, Instr.tableRow]

theorem cmd24Mcp3008Ch1 : Statement (.cmd24Mcp3008Ch1) := by
  simp [Statement, Sys2Proof.encode, ReqWord.tableBits, Instr.tableRow]

theorem cmd24Mcp3008Ch2 : Statement (.cmd24Mcp3008Ch2) := by
  simp [Statement, Sys2Proof.encode, ReqWord.tableBits, Instr.tableRow]

theorem cmd24Mcp3008Ch3 : Statement (.cmd24Mcp3008Ch3) := by
  simp [Statement, Sys2Proof.encode, ReqWord.tableBits, Instr.tableRow]

theorem cmd24Mcp3008Ch4 : Statement (.cmd24Mcp3008Ch4) := by
  simp [Statement, Sys2Proof.encode, ReqWord.tableBits, Instr.tableRow]

theorem cmd24Mcp3008Ch5 : Statement (.cmd24Mcp3008Ch5) := by
  simp [Statement, Sys2Proof.encode, ReqWord.tableBits, Instr.tableRow]

theorem cmd24Mcp3008Ch6 : Statement (.cmd24Mcp3008Ch6) := by
  simp [Statement, Sys2Proof.encode, ReqWord.tableBits, Instr.tableRow]

theorem cmd24Mcp3008Ch7 : Statement (.cmd24Mcp3008Ch7) := by
  simp [Statement, Sys2Proof.encode, ReqWord.tableBits, Instr.tableRow]

theorem rsp24 (x : BitVec 14) (d : BitVec 10) : Statement (.rsp24 x d) := ⟨rfl, Nat.and_zero _⟩

end Sys2Proof.Laws.TableRow
end

