-- ==== Sys2Proof/Laws/Session.lean ====
section
/-! SUPPORT. A CONFIGURE or CLOSE whose answer is not the next event stays in flight. -/

namespace Sys2Proof.Machine

theorem openIfAnswered_waits {s : State} {o : Opening} (h : ∀ a rest, s.inbox ≠ .move (.answer o.ticket a) :: rest) :
    s.openIfAnswered o = .next s := by
  unfold State.openIfAnswered
  split
  · rename_i t a rest hi
    split
    · rename_i ht
      exact absurd (ht ▸ hi) (h a rest)
    · rfl
  · rfl

theorem closeIfAnswered_waits {s : State} {t : Nat} (h : ∀ a rest, s.inbox ≠ .move (.answer t a) :: rest) :
    s.closeIfAnswered t = .next s := by
  unfold State.closeIfAnswered
  split
  · rename_i u a rest hi
    split
    · rename_i ht
      exact absurd (ht ▸ hi) (h a rest)
    · rfl
  · rfl

end Sys2Proof.Machine
end

