-- ==== Sys2Proof/Laws/Step.lean ====
section
/-! SUPPORT. What a step is made of. Every step is a chain of the updates listed in `KeptByUpdates`; a property that each of
them keeps is kept by `exec`, by `perform` and by `step`. -/

namespace Sys2Proof.Machine

/-! ## The updates -/

/-- What is known of a request when it is admitted: a reading request has passed BUILD, with a positive reference voltage
that its caller or the session gave. -/
structure Admissible (s : State) (origin : Origin) (cmd : Frame) : Prop where
  built : ∀ v, origin.vals = some v → channelLegal v.chip v.ch ∧ cmd = commandFrame v.chip v.ch.toNat
  read : ∀ v, origin = .read v → 0 < v.vref
  sread : ∀ v, origin = .sread v → ∃ r, (s.session = .opened r ∨ s.session = .closed r) ∧ v.vref = r.vref

/-- The state after a successful Open. -/
def State.opened (o : Opening) (h : Handle) (s : State) : State :=
  State.deliver o.ticket (.ok .none)
    { State.openHandle h Config.ownLink (s.endOpening o.ticket) with session := .opened (o.regs h) }

/-- Every update that a step is made of keeps `P`, under what is known where the step makes it. -/
structure KeptByUpdates (P : State → Prop) : Prop where
  consume : ∀ s e rest, s.inbox = e :: rest → P s → P (s.withInbox rest)
  replyNow : ∀ s r, P s → P (s.replyNow r)
  enqueue : ∀ s origin cmd h usable, Admissible s origin cmd → P s → P (s.enqueue origin cmd h usable)
  advance : ∀ s t, P s → P (s.advance t)
  exchangeAnswered : ∀ s t a rest, s.inbox = .move (.answer t a) :: rest → P s →
    P ((s.withInbox rest).exchangeAnswered t a)
  startOpen : ∀ s o, o.ticket = s.nextTicket → 0 < o.vref → 0 < o.clockHz → P s → P (s.startOpen o)
  opened : ∀ s o h, o ∈ s.opening → s.session.sstate ≠ .opened → s.sreadInFlight = false → P s → P (s.opened o h)
  openFailed : ∀ s o, o ∈ s.opening → P s →
    P ((s.endOpening o.ticket).deliver o.ticket (.fail (.transportError .openFailed)))
  startClose : ∀ s r, s.session = .opened r → s.closing = none → s.sreadInFlight = false → P s → P (s.startClose r)
  endSession : ∀ s t r a, s.session = .opened r → s.closing = some t → s.sreadInFlight = false → P s →
    P (s.endSession t r a)
  outsideOpen : ∀ s h l, s.ownsHandle h = false → P s → P (s.openHandle h l)
  outsideClose : ∀ s h, s.ownsHandle h = false → P s → P (s.releaseHandle h)
  outsideTake : ∀ s l, l ∉ s.busy → P s → P { s with busy := takeLink l s.busy, outside := takeLink l s.outside }
  outsideFree : ∀ s l, l ∈ s.outside → P s → P { s with busy := s.busy.erase l, outside := s.outside.erase l }

namespace KeptByUpdates

variable {P : State → Prop} (K : KeptByUpdates P)
include K

/-! ## Requests -/

theorem encodeRequest {s : State} (chip : ChipModel) (ch : Int) (hp : P s) : P (s.encodeRequest chip ch) := by
  unfold State.encodeRequest
  cases encodeUnit chip ch <;> exact K.replyNow s _ hp

theorem decodeRequest {s : State} (rsp : List Byte) (hp : P s) : P (s.decodeRequest rsp) := by
  unfold State.decodeRequest
  cases decodeUnit rsp <;> exact K.replyNow s _ hp

theorem runIfAnswered {s : State} (t : Nat) (hp : P s) : P (s.runIfAnswered t) := by
  rcases runIfAnswered_cases s t with he | ⟨a, rest, hi, he⟩
  · rwa [he]
  · rw [he]
    change P (State.advance t (State.advance t (State.exchangeAnswered t a (State.advance t (s.withInbox rest)))))
    rw [advance_withInbox]
    exact K.advance _ _ (K.advance _ _ (K.exchangeAnswered _ _ _ _ ((advance_inbox s t).trans hi) (K.advance _ _ hp)))

theorem startRead {s : State} {origin : Origin} {v : ReadVals} (h : Handle) (usable : Bool) (hv : origin.vals = some v)
    (hread : ∀ w, origin = .read w → 0 < w.vref)
    (hsread : ∀ w, origin = .sread w → ∃ r, (s.session = .opened r ∨ s.session = .closed r) ∧ w.vref = r.vref)
    (hp : P s) : P (s.startRead origin v h usable) := by
  rcases encodeUnit_cases v.chip v.ch with ⟨hl, he⟩ | ⟨-, he⟩
  · simp only [State.startRead, he, State.startExchange]
    refine K.runIfAnswered _ (K.enqueue s _ _ _ _ ⟨?_, hread, hsread⟩ hp)
    intro w hw
    obtain rfl : v = w := Option.some.inj (hv.symm.trans hw)
    exact ⟨hl, rfl⟩
  · simp only [State.startRead, he]
    exact K.replyNow s _ hp

/-! ## The transport's answers -/

theorem openAnswered {s s' : State} {o : Opening} {a : Answer} (ho : o ∈ s.opening) (hp : P s)
    (h : s.openAnswered o a = .next s') : P s' := by
  cases a with
  | handle hd =>
    simp only [State.openAnswered] at h
    by_cases h1 : s.session.sstate = .opened
    · simp [h1] at h
    · by_cases h2 : s.sreadInFlight = true
      · simp [h1, h2] at h
      · simp only [h1, h2, Bool.false_eq_true, if_false, Host.Outcome.next.injEq] at h
        exact h ▸ K.opened s o hd ho h1 (by simpa using h2) hp
  | failed =>
    simp only [State.openAnswered, Host.Outcome.next.injEq] at h
    exact h ▸ K.openFailed s o ho hp
  | bytes _ => simp only [State.openAnswered, Host.Outcome.next.injEq] at h; exact h ▸ hp
  | done => simp only [State.openAnswered, Host.Outcome.next.injEq] at h; exact h ▸ hp

theorem closeAnswered {s s' : State} {t : Nat} {a : Answer} (hc : s.closing = some t) (hp : P s)
    (h : s.closeAnswered t a = .next s') : P s' := by
  cases hs : s.session with
  | unconfigured => simp only [State.closeAnswered, hs, Host.Outcome.next.injEq] at h; exact h ▸ hp
  | closed r => simp only [State.closeAnswered, hs, Host.Outcome.next.injEq] at h; exact h ▸ hp
  | opened r =>
    cases hsr : s.sreadInFlight with
    | false =>
      cases a <;> simp only [State.closeAnswered, hs, hsr, if_false, Bool.false_eq_true, Host.Outcome.next.injEq] at h <;>
        first
          | exact h ▸ hp
          | exact h ▸ K.endSession s t r _ hs hc hsr hp
    | true =>
      cases a <;> simp only [State.closeAnswered, hs, hsr, if_true, reduceCtorEq, Host.Outcome.next.injEq] at h <;>
        exact h ▸ hp

/-! ## The three that end in an outcome -/

theorem configure {s s' : State} {chip : BitVec 2} {chDefault clockHz : Int} {vref : Option NumT} {mode : SpiMode}
    (hp : P s) (h : execConfigure chip chDefault clockHz vref mode s = .next s') : P s' := by
  unfold execConfigure at h
  by_cases h1 : s.session.sstate = .opened
  · simp [h1] at h
  by_cases h2 : s.sreadInFlight = true
  · simp [h1, h2] at h
  simp only [h1, h2, Bool.false_eq_true, if_false] at h
  cases hc : chipOfField chip with
  | none =>
    simp only [hc, Host.Outcome.next.injEq] at h
    exact h ▸ K.replyNow s _ hp
  | some c =>
    simp only [hc] at h
    by_cases h3 : configVref vref ≤ 0
    · simp only [h3, if_true, Host.Outcome.next.injEq] at h
      exact h ▸ K.replyNow s _ hp
    by_cases h4 : clockHz ≤ 0
    · simp only [h3, h4, if_true, if_false, Host.Outcome.next.injEq] at h
      exact h ▸ K.replyNow s _ hp
    simp only [h3, h4, if_false] at h
    have hp' := K.startOpen s ⟨s.nextTicket, c, configVref vref, chDefault, clockHz, mode⟩ rfl (not_le.1 h3) (not_le.1 h4) hp
    unfold State.openIfAnswered at h
    split at h
    · rename_i hi
      split at h
      · exact K.openAnswered (by simp [State.startOpen, State.withInbox]) (K.consume _ _ _ hi hp') h
      · exact Host.Outcome.next.inj h ▸ hp'
    · exact Host.Outcome.next.inj h ▸ hp'

theorem close {s s' : State} (hp : P s) (h : execClose s = .next s') : P s' := by
  unfold execClose at h
  cases hs : s.session with
  | unconfigured => simp [hs] at h
  | closed r =>
    simp only [hs, Host.Outcome.next.injEq] at h
    exact h ▸ K.replyNow s _ hp
  | opened r =>
    simp only [hs] at h
    by_cases h1 : s.sreadInFlight = true
    · simp [h1] at h
    by_cases h2 : s.closing.isSome = true
    · simp [h1, h2] at h
    simp only [h1, h2, Bool.false_eq_true, if_false] at h
    have hp' := K.startClose s r hs (by simpa using h2) (by simpa using h1) hp
    unfold State.closeIfAnswered at h
    split at h
    · rename_i hi
      split at h
      · rename_i ht
        subst ht
        exact K.closeAnswered (by simp [State.startClose, State.withInbox]) (K.consume _ _ _ hi hp') h
      · exact Host.Outcome.next.inj h ▸ hp'
    · exact Host.Outcome.next.inj h ▸ hp'

theorem sread {s s' : State} {ch : Option Int} (hp : P s) (h : execSread ch s = .next s') : P s' := by
  unfold execSread at h
  cases hs : s.session with
  | unconfigured => simp [hs] at h
  | opened r =>
    simp only [hs, Host.Outcome.next.injEq] at h
    exact h ▸ K.startRead _ _ rfl (by simp) (fun w hw => ⟨r, Or.inl hs, by simp only [Origin.sread.injEq] at hw; rw [← hw]⟩) hp
  | closed r =>
    simp only [hs, Host.Outcome.next.injEq] at h
    exact h ▸ K.startRead _ _ rfl (by simp) (fun w hw => ⟨r, Or.inr hs, by simp only [Origin.sread.injEq] at hw; rw [← hw]⟩) hp

theorem read {s s' : State} {chip : ChipModel} {ch : Int} {vref : NumT} {hd : Handle} (hp : P s)
    (h : execRead chip ch vref hd s = .next s') : P s' := by
  unfold execRead at h
  by_cases hv : vref ≤ 0
  · simp [hv] at h
  · simp only [hv, if_false, Host.Outcome.next.injEq] at h
    refine h ▸ K.startRead _ _ rfl ?_ (by simp) hp
    rintro w hw
    simp only [Origin.read.injEq] at hw
    exact hw ▸ not_le.1 hv

theorem scale {s s' : State} {code : Code} {vref : NumT} (hp : P s) (h : execScale code vref s = .next s') : P s' := by
  unfold execScale at h
  by_cases hv : vref ≤ 0
  · simp [hv] at h
  · simp only [hv, if_false, Host.Outcome.next.injEq] at h
    exact h ▸ K.replyNow s _ hp

/-! ## The whole -/

/-- Every instruction keeps `P`. -/
theorem exec {i : Instr} {s s' : State} (hp : P s) (h : exec i s = .next s') : P s' := by
  cases i with
  | configure _ _ _ _ _ => exact K.configure hp h
  | sread _ => exact K.sread hp h
  | close => exact K.close hp h
  | read _ _ _ _ => exact K.read hp h
  | scale _ _ => exact K.scale hp h
  | xfer cmd hd =>
    exact Host.Outcome.next.inj h ▸
      K.runIfAnswered _ (K.enqueue s .xfer cmd hd true ⟨by simp [Origin.vals], by simp, by simp⟩ hp)
  | decode rsp => exact Host.Outcome.next.inj h ▸ K.decodeRequest rsp hp
  | rsp24 _ _ => exact Host.Outcome.next.inj h ▸ K.decodeRequest _ hp
  | encode _ _ => exact Host.Outcome.next.inj h ▸ K.encodeRequest _ _ hp
  | cmd24Mcp3002 _ => exact Host.Outcome.next.inj h ▸ K.encodeRequest _ _ hp
  | cmd24Mcp3004 _ => exact Host.Outcome.next.inj h ▸ K.encodeRequest _ _ hp
  | cmd24Mcp3008 _ => exact Host.Outcome.next.inj h ▸ K.encodeRequest _ _ hp
  | cmd24Mcp3002Ch0 => exact Host.Outcome.next.inj h ▸ K.encodeRequest _ _ hp
  | cmd24Mcp3002Ch1 => exact Host.Outcome.next.inj h ▸ K.encodeRequest _ _ hp
  | cmd24Mcp3004Ch0 => exact Host.Outcome.next.inj h ▸ K.encodeRequest _ _ hp
  | cmd24Mcp3004Ch1 => exact Host.Outcome.next.inj h ▸ K.encodeRequest _ _ hp
  | cmd24Mcp3004Ch2 => exact Host.Outcome.next.inj h ▸ K.encodeRequest _ _ hp
  | cmd24Mcp3004Ch3 => exact Host.Outcome.next.inj h ▸ K.encodeRequest _ _ hp
  | cmd24Mcp3008Ch0 => exact Host.Outcome.next.inj h ▸ K.encodeRequest _ _ hp
  | cmd24Mcp3008Ch1 => exact Host.Outcome.next.inj h ▸ K.encodeRequest _ _ hp
  | cmd24Mcp3008Ch2 => exact Host.Outcome.next.inj h ▸ K.encodeRequest _ _ hp
  | cmd24Mcp3008Ch3 => exact Host.Outcome.next.inj h ▸ K.encodeRequest _ _ hp
  | cmd24Mcp3008Ch4 => exact Host.Outcome.next.inj h ▸ K.encodeRequest _ _ hp
  | cmd24Mcp3008Ch5 => exact Host.Outcome.next.inj h ▸ K.encodeRequest _ _ hp
  | cmd24Mcp3008Ch6 => exact Host.Outcome.next.inj h ▸ K.encodeRequest _ _ hp
  | cmd24Mcp3008Ch7 => exact Host.Outcome.next.inj h ▸ K.encodeRequest _ _ hp

/-- Every move of another agent, when it is the next event, keeps `P`. -/
theorem perform {m : Move} {rest : List Event} {s s' : State} (hi : s.inbox = .move m :: rest) (hp : P s)
    (h : perform m (s.withInbox rest) = .next s') : P s' := by
  have hq : P (s.withInbox rest) := K.consume s _ rest hi hp
  cases m with
  | advance t => exact Host.Outcome.next.inj h ▸ K.advance _ t hq
  | answer t a =>
    simp only [Sys2Proof.Machine.perform, answerMove] at h
    by_cases hc : (s.withInbox rest).closing = some t
    · simp only [hc, if_true] at h
      exact K.closeAnswered hc hq h
    · simp only [hc, if_false] at h
      cases ho : (s.withInbox rest).opening.find? fun o => decide (o.ticket = t) with
      | some o =>
        simp only [ho] at h
        exact K.openAnswered (List.mem_of_find?_eq_some ho) hq h
      | none =>
        simp only [ho, Host.Outcome.next.injEq] at h
        exact h ▸ K.exchangeAnswered s t a rest hi hp
  | outsideOpen hd l =>
    simp only [Sys2Proof.Machine.perform, outsideOpenMove] at h
    cases ho : (s.withInbox rest).ownsHandle hd with
    | true => simp only [ho, if_true, Host.Outcome.next.injEq] at h; exact h ▸ hq
    | false =>
      simp only [ho, Bool.false_eq_true, if_false, Host.Outcome.next.injEq] at h
      exact h ▸ K.outsideOpen _ hd l ho hq
  | outsideClose hd =>
    simp only [Sys2Proof.Machine.perform, outsideCloseMove] at h
    cases ho : (s.withInbox rest).ownsHandle hd with
    | true => simp only [ho, if_true, Host.Outcome.next.injEq] at h; exact h ▸ hq
    | false =>
      simp only [ho, Bool.false_eq_true, if_false, Host.Outcome.next.injEq] at h
      exact h ▸ K.outsideClose _ hd ho hq
  | outsideTake l =>
    simp only [Sys2Proof.Machine.perform, outsideTakeMove] at h
    by_cases hl : l ∈ (s.withInbox rest).busy
    · simp only [hl, if_true, Host.Outcome.next.injEq] at h; exact h ▸ hq
    · simp only [hl, if_false, Host.Outcome.next.injEq] at h
      exact h ▸ K.outsideTake _ l hl hq
  | outsideFree l =>
    simp only [Sys2Proof.Machine.perform, outsideFreeMove] at h
    by_cases hl : l ∈ (s.withInbox rest).outside
    · simp only [hl, if_true, Host.Outcome.next.injEq] at h
      exact h ▸ K.outsideFree _ l hl hq
    · simp only [hl, if_false, Host.Outcome.next.injEq] at h; exact h ▸ hq

/-- Every step keeps `P`. -/
theorem step {s s' : State} (hp : P s) (h : step s = .next s') : P s' := by
  unfold Sys2Proof.Machine.step at h
  cases hi : s.inbox with
  | nil => simp only [hi, Host.Outcome.next.injEq] at h; exact h ▸ hp
  | cons e rest =>
    cases e with
    | request w =>
      simp only [hi, issue] at h
      cases hd : decode w with
      | error why => simp [hd] at h
      | ok i => simp only [hd] at h; exact K.exec (K.consume s _ rest hi hp) h
    | move m =>
      simp only [hi] at h
      exact K.perform hi hp h

/-- Every run keeps `P`. -/
theorem run {k : Nat} {s s' : State} (hp : P s) (h : Sys2Proof.core.run k s = .next s') : P s' := by
  induction k generalizing s with
  | zero => exact Host.Outcome.next.inj h ▸ hp
  | succ k ih =>
    simp only [Host.Core.run] at h
    cases hs : Sys2Proof.core.step s with
    | next t => rw [hs] at h; exact ih (K.step hp hs) h
    | fault r => rw [hs] at h; cases h
    | refused r => rw [hs] at h; cases h

end KeptByUpdates

end Sys2Proof.Machine
end

