-- ==== Sys2Proof/Tests/Slice0.lean ====
section
/-! SUPPORT. Tests of one step each, with results from the spec's own vectors (95_test_vectors.md, named in the comments), and
for every statement with hypotheses a state and operands that meet them. -/

open Sys2Proof Sys2Proof.Machine

namespace Sys2Proof.Tests

/-! ## The check of WellFormed refuses ill-formed terms -/

theorem test_wf_read_zero : (Instr.read .mcp3008 0 0 4).wf = false := by decide
theorem test_wf_read_positive : (Instr.read .mcp3008 0 5 4).wf = true := by decide
theorem test_wf_scale_negative : (Instr.scale 512 (-5)).wf = false := by decide
theorem test_wf_scale_positive : (Instr.scale 512 (33 / 10)).wf = true := by decide +kernel

/-! ## Decoding: words written out from 30_encoding.md -/

-- R92: selector 0b000, operands chip, ch_default, clock_hz, vref, mode; R93, R94 for the fields
theorem test_decode_configure :
    decode (.hostop 0b000#3 [.chip 0b01#2, .int 3, .int 1350000, .num (33 / 10), .mode 0b11#2])
      = .ok (.configure 0b01#2 3 1350000 (some (33 / 10)) .mode3) := by decide +kernel
-- R195, R197: CONFIGURE takes the reserved chip field, since it is the one that rejects it
theorem test_decode_configure_reserved_chip :
    decode (.hostop 0b000#3 [.chip 0b11#2, .int 0, .int 1, .absent, .mode 0b00#2])
      = .ok (.configure 0b11#2 0 1 none .mode0) := by decide
-- R94: 0b01 and 0b10 are refused
theorem test_decode_unsupported_mode :
    decode (.hostop 0b000#3 [.chip 0b00#2, .int 0, .int 1, .num 5, .mode 0b10#2]) = .error .unsupportedMode := by
  decide
theorem test_decode_sread :
    decode (.hostop 0b001#3 [.int (-1)]) = .ok (.sread (some (-1))) ∧
    decode (.hostop 0b001#3 [.absent]) = .ok (.sread none) := by decide
theorem test_decode_close : decode (.hostop 0b010#3 []) = .ok .close := by decide
theorem test_decode_read :
    decode (.hostop 0b011#3 [.chip 0b00#2, .int 1, .num 5, .handle 9]) = .ok (.read .mcp3002 1 5 9) := by decide
theorem test_decode_encode :
    decode (.hostop 0b100#3 [.chip 0b01#2, .int 2]) = .ok (.encode .mcp3004 2) ∧
    decode (.hostop 0b100#3 [.chip 0b11#2, .int 2]) = .error .reservedChip := by decide
theorem test_decode_xfer :
    decode (.hostop 0b101#3 [.bytes [0x01#8, 0x90#8, 0x00#8], .handle 4]) = .ok (.xfer ⟨0x01#8, 0x90#8, 0x00#8⟩ 4) ∧
    decode (.hostop 0b101#3 [.bytes [0x01#8, 0x90#8], .handle 4]) = .error (.commandLength 2) := by decide
theorem test_decode_decode : decode (.hostop 0b110#3 [.bytes [0x01#8, 0x02#8]]) = .ok (.decode [0x01#8, 0x02#8]) := by
  decide
theorem test_decode_scale : decode (.hostop 0b111#3 [.code 515#10, .num 5]) = .ok (.scale 515#10 5) := by decide
theorem test_decode_shape : decode (.hostop 0b010#3 [.int 0]) = .error .operandShape := by decide
-- R89: the fourteen rows, their 24 bits written out
theorem test_decode_frames :
    (∀ p ∈ ([(0b000000011000000000000000#24, .cmd24Mcp3002Ch0), (0b000000011100000000000000#24, .cmd24Mcp3002Ch1)] :
      List (BitVec 24 × Instr)), decode (.cmd24 0b00#2 p.1) = .ok p.2) ∧
    (∀ p ∈ ([(0b000000011000000000000000#24, .cmd24Mcp3004Ch0), (0b000000011001000000000000#24, .cmd24Mcp3004Ch1),
        (0b000000011010000000000000#24, .cmd24Mcp3004Ch2), (0b000000011011000000000000#24, .cmd24Mcp3004Ch3)] :
      List (BitVec 24 × Instr)), decode (.cmd24 0b01#2 p.1) = .ok p.2) ∧
    (∀ p ∈ ([(0b000000011000000000000000#24, .cmd24Mcp3008Ch0), (0b000000011001000000000000#24, .cmd24Mcp3008Ch1),
        (0b000000011010000000000000#24, .cmd24Mcp3008Ch2), (0b000000011011000000000000#24, .cmd24Mcp3008Ch3),
        (0b000000011100000000000000#24, .cmd24Mcp3008Ch4), (0b000000011101000000000000#24, .cmd24Mcp3008Ch5),
        (0b000000011110000000000000#24, .cmd24Mcp3008Ch6), (0b000000011111000000000000#24, .cmd24Mcp3008Ch7)] :
      List (BitVec 24 × Instr)), decode (.cmd24 0b10#2 p.1) = .ok p.2) := by decide
-- R83, R84: the words of the pattern rows, bit 14, bits 13:12 and bits 14:12 being the channel
theorem test_encode_patterns :
    encode (.cmd24Mcp3002 1#1) = .cmd24 0b00#2 0b000000011100000000000000#24 ∧
    encode (.cmd24Mcp3004 0b10#2) = .cmd24 0b01#2 0b000000011010000000000000#24 ∧
    encode (.cmd24Mcp3008 0b101#3) = .cmd24 0b10#2 0b000000011101000000000000#24 := by decide
-- R90: a differential frame (bit 7 of element 1 clear), and a frame of another chip
theorem test_decode_not_a_frame :
    decode (.cmd24 0b10#2 0b000000010001000000000000#24) = .error .notACommandFrame ∧
    decode (.cmd24 0b00#2 0b000000011001000000000000#24) = .error .notACommandFrame ∧
    decode (.cmd24 0b11#2 0b000000011000000000000000#24) = .error .reservedChip := by decide
-- R87: element 0 and bits 7:2 of element 1 are ignored bits, the other ten the code (vector D16)
theorem test_decode_response :
    decode (.rsp24 0b011111111000001100000001#24) = .ok (.rsp24 0b01111111100000#14 0b1100000001#10) := by decide
-- the words of the opcode table
theorem test_decodeTableWord :
    decodeTableWord 8 0x2 = some .close ∧ decodeTableWord 8 0x4 = some (.encode .mcp3002 0) ∧
    decodeTableWord 24 0x01F000 = some .cmd24Mcp3008Ch7 ∧
    decodeTableWord 24 0x010203 = some (.rsp24 0b00000001000000#14 0b1000000011#10) := by decide
theorem test_withFetchWord :
    step (State.reset.withFetchWord 24 0x01F000) = exec .cmd24Mcp3008Ch7 State.reset ∧
    step (State.reset.withFetchWord 8 0x4) = exec (.encode .mcp3002 0) State.reset := ⟨rfl, rfl⟩

/-! ## Small states -/

/-- What the outcome of a step says to the host: the reply delivered last. -/
def lastReply (o : Outcome) : Option Reply :=
  match o with
  | .next s => s.replies.getLast?.map Prod.snd
  | _ => none

/-- A field of the next state. -/
def after {α : Type} (f : State → α) (o : Outcome) : Option α :=
  match o with
  | .next s => some (f s)
  | _ => none

/-- The registers of the worked example of R195. -/
def regs : Regs := ⟨.mcp3008, 5, 0, 1000000, .mode0, 7⟩

/-- An open session on handle 7, the next call of the next request being answered with `a`. -/
def opened (a : Answer) : State :=
  { State.reset with session := .opened regs, handles := [(7, ⟨0, true⟩)], inbox := [.move (.answer 0 a)] }

/-- The same session after CLOSE. -/
def closed (a : Answer) : State :=
  { State.reset with session := .closed regs, handles := [(7, ⟨0, false⟩)], inbox := [.move (.answer 0 a)] }

/-- No session; handle 4, which the host opened itself, on link 1. -/
def byHand (a : Answer) : State := { State.reset with handles := [(4, ⟨1, true⟩)], inbox := [.move (.answer 0 a)] }

/-- After reset, the next call being answered with `a`. -/
def fresh (a : Answer) : State := { State.reset with inbox := [.move (.answer 0 a)] }

/-! ## One step of every instruction, from the vectors of 95_test_vectors.md -/

-- E6, E2; E25, E19
theorem test_encode :
    lastReply (exec (.encode .mcp3004 3) State.reset) = some (.ok (.command ⟨0x01#8, 0xB0#8, 0x00#8⟩)) ∧
    lastReply (exec (.encode .mcp3002 1) State.reset) = some (.ok (.command ⟨0x01#8, 0xC0#8, 0x00#8⟩)) := by decide
theorem test_encode_bad_channel :
    lastReply (exec (.encode .mcp3008 256) State.reset) = some (.fail (.invalidChannel 256 .mcp3008)) ∧
    lastReply (exec (.encode .mcp3004 4) State.reset) = some (.fail (.invalidChannel 4 .mcp3004)) := by decide
-- E1 to E14
theorem test_frame_rows :
    ∀ p ∈ ([(.cmd24Mcp3002Ch0, 0x80#8), (.cmd24Mcp3002Ch1, 0xC0#8), (.cmd24Mcp3004Ch0, 0x80#8), (.cmd24Mcp3004Ch1, 0x90#8),
        (.cmd24Mcp3004Ch2, 0xA0#8), (.cmd24Mcp3004Ch3, 0xB0#8), (.cmd24Mcp3008Ch0, 0x80#8), (.cmd24Mcp3008Ch1, 0x90#8),
        (.cmd24Mcp3008Ch2, 0xA0#8), (.cmd24Mcp3008Ch3, 0xB0#8), (.cmd24Mcp3008Ch4, 0xC0#8), (.cmd24Mcp3008Ch5, 0xD0#8),
        (.cmd24Mcp3008Ch6, 0xE0#8), (.cmd24Mcp3008Ch7, 0xF0#8), (.cmd24Mcp3002 1#1, 0xC0#8), (.cmd24Mcp3004 2#2, 0xA0#8),
        (.cmd24Mcp3008 6#3, 0xE0#8)] : List (Instr × Byte)),
      lastReply (exec p.1 State.reset) = some (.ok (.command ⟨0x01#8, p.2, 0x00#8⟩)) := by decide
-- D14, D20
theorem test_decode_code :
    lastReply (exec (.decode [0x00#8, 0xFD#8, 0x80#8]) State.reset) = some (.ok (.code 384#10)) := by decide
theorem test_decode_malformed :
    lastReply (exec (.decode [0x01#8, 0x02#8, 0x03#8, 0x04#8]) State.reset) = some (.fail (.malformedResponse 4)) := by
  decide
-- D16
theorem test_rsp24 : lastReply (exec (.rsp24 0b01111111100000#14 769#10) State.reset) = some (.ok (.code 769#10)) := by
  decide
-- A11, A18; refused: SCALE code=512 vref=0
theorem test_scale :
    lastReply (exec (.scale 1023 5) State.reset) = some (.ok (.reading (5115 / 1024))) ∧
    lastReply (exec (.scale 1023 (33 / 10)) State.reset) = some (.ok (.reading (33759 / 10240))) := by decide +kernel
theorem test_scale_refused : exec (.scale 512 0) State.reset = .refused .nonPositiveReference := by rfl
-- X1, X5
theorem test_xfer :
    lastReply (exec (.xfer ⟨0x01#8, 0x90#8, 0x00#8⟩ 4) (byHand (.bytes [0x01#8, 0x02#8, 0x03#8])))
      = some (.ok (.response [0x01#8, 0x02#8, 0x03#8])) ∧
    after State.busy (exec (.xfer ⟨0x01#8, 0x90#8, 0x00#8⟩ 4) (byHand (.bytes [0x01#8, 0x02#8, 0x03#8]))) = some [] := by
  decide
theorem test_xfer_length :
    lastReply (exec (.xfer ⟨0x01#8, 0x90#8, 0x00#8⟩ 4) (byHand (.bytes [0x01#8, 0x02#8, 0x03#8, 0x04#8])))
      = some (.fail (.transportError (.lengthMismatch 4))) := by decide
-- P6 step 5; READ chip=MCP3004 ch=4 with a transport that fails (R189, F1)
theorem test_read :
    lastReply (exec (.read .mcp3004 2 (33 / 10) 4) (byHand (.bytes [0x00#8, 0x02#8, 0x9A#8])))
      = some (.ok (.reading (10989 / 5120))) ∧
    after State.wire (exec (.read .mcp3004 2 (33 / 10) 4) (byHand (.bytes [0x00#8, 0x02#8, 0x9A#8])))
      = some [(1, ⟨0x01#8, 0xA0#8, 0x00#8⟩)] := by decide +kernel
theorem test_read_bad_channel :
    lastReply (exec (.read .mcp3004 4 5 4) (byHand .failed)) = some (.fail (.invalidChannel 4 .mcp3004)) ∧
    after State.calls (exec (.read .mcp3004 4 5 4) (byHand .failed)) = some [] := by decide
-- Q3; Q11
theorem test_sread :
    lastReply (exec (.sread (some 7)) (opened (.bytes [0x00#8, 0x03#8, 0xFF#8]))) = some (.ok (.reading (5115 / 1024))) ∧
    after State.wire (exec (.sread none) (opened (.bytes [0x00#8, 0x02#8, 0x00#8])))
      = some [(0, ⟨0x01#8, 0x80#8, 0x00#8⟩)] := by decide +kernel
theorem test_sread_after_close :
    lastReply (exec (.sread (some 0)) (closed .failed)) = some (.fail (.transportError .exchangeFailed)) ∧
    after State.wire (exec (.sread (some 0)) (closed .failed)) = some [] := by decide
-- the worked example of R195; F4
theorem test_configure :
    after State.session (exec (.configure 0b10#2 0 1000000 (some 5) .mode0) (fresh (.handle 7))) = some (.opened regs) := by
  decide
theorem test_configure_bad_chip :
    lastReply (exec (.configure 0b11#2 0 1000000 (some 0) .mode0) (fresh (.handle 7)))
      = some (.fail (.invalidConfiguration .chipModel)) ∧
    after State.session (exec (.configure 0b11#2 0 1000000 (some 0) .mode0) (fresh (.handle 7))) = some .unconfigured := by
  decide
-- Q9; Q10
theorem test_close :
    after State.session (exec .close (opened .failed)) = some (.closed regs) ∧
    lastReply (exec .close (opened .failed)) = some (.ok .none) := by decide
theorem test_close_again : after State.calls (exec .close (closed .failed)) = some [] := by decide

/-! ## Witnesses: states and operands that meet the hypotheses of the statements

The boundary channels of each chip, in and out of range. -/

theorem witness_channels_in_range :
    ∀ p ∈ ([(.mcp3002, 0), (.mcp3002, 1), (.mcp3004, 0), (.mcp3004, 3), (.mcp3008, 0), (.mcp3008, 7)] :
      List (ChipModel × Int)), channelLegal p.1 p.2 := by decide
theorem witness_channels_out_of_range :
    ∀ p ∈ ([(.mcp3002, -1), (.mcp3002, 2), (.mcp3004, -1), (.mcp3004, 4), (.mcp3008, -1), (.mcp3008, 8)] :
      List (ChipModel × Int)), ¬ channelLegal p.1 p.2 := by decide
theorem witness_EncodeBuildsTheCommandOrRejectsTheChannel :
    ((0 : Int) ≤ 7 ∧ (7 : Int) ≤ (match ChipModel.mcp3008 with | .mcp3002 => 1 | .mcp3004 => 3 | .mcp3008 => 7)) ∧
    ¬ ((0 : Int) ≤ 2 ∧ (2 : Int) ≤ (match ChipModel.mcp3002 with | .mcp3002 => 1 | .mcp3004 => 3 | .mcp3008 => 7)) := by
  decide
theorem witness_ControlByteLosesNoBit : channelLegal .mcp3002 1 ∧ channelLegal .mcp3008 7 := by decide
theorem witness_CommandFrameTable :
    exec (.encode .mcp3004 3) State.reset = .next (State.reset.replied (.ok (.command ⟨0x01#8, 0xB0#8, 0x00#8⟩))) := by rfl
theorem witness_DecodeRejectsEveryOtherLength :
    ([] : List Byte).length ≠ 3 ∧ [0x01#8, 0x02#8].length ≠ 3 ∧ [0x01#8, 0x02#8, 0x03#8, 0x04#8].length ≠ 3 := by decide
theorem witness_DecodeIsOntoAndIgnoresFourteenBits : (0xFE#8).extractLsb' 0 2 = (0x02#8).extractLsb' 0 2 := by decide
theorem witness_ScaleMultipliesAndDividesBy1024 : (0 : NumT) < 5 := by decide
theorem witness_ScalerRangeAndShape :
    (0 : NumT) < 1 / 1024 ∧ (1 : Code).toNat = (0 : Code).toNat + 1 ∧ (1023 : Code).toNat = (1022 : Code).toNat + 1 ∧
    (0 : Code).toNat < (1023 : Code).toNat ∧ scaleUnit 512 (1 / 1024) = scaleUnit 512 (1 / 1024) := by decide +kernel
theorem witness_FixedPointScalerIsExact : 0 < 2 ^ 0 ∧ 7 < 2 ^ 3 := by decide
theorem witness_NonPositiveReferenceIsRefused : (0 : NumT) ≤ 0 ∧ (-5 : NumT) ≤ 0 := by decide

/-! ### Exchanges that are answered at once -/

theorem witness_ofExchange :
    Answer.failed.ofExchange ∧ (Answer.bytes []).ofExchange ∧ (Answer.bytes [0x01#8, 0x02#8, 0x03#8]).ofExchange :=
  ⟨Or.inl rfl, Or.inr ⟨_, rfl⟩, Or.inr ⟨_, rfl⟩⟩
theorem witness_XferExchangesOnceAndChecksTheLength (a : Answer) :
    (byHand a).Fresh ∧ findHandle 4 (byHand a).handles = some ⟨1, true⟩ ∧ 1 ∉ (byHand a).busy ∧
    (byHand a).inbox = .move (.answer (byHand a).nextTicket a) :: [] := by
  refine ⟨⟨?_, ?_⟩, rfl, List.not_mem_nil, rfl⟩ <;> intro _ h <;> cases h
theorem witness_ReadBuildsExchangesDecodesAndScales :
    channelLegal .mcp3004 2 ∧ (0 : NumT) < 33 / 10 ∧ (byHand .failed).Fresh ∧
    findHandle 4 (byHand .failed).handles = some ⟨1, true⟩ ∧ 1 ∉ (byHand .failed).busy ∧ Answer.failed.ofExchange ∧
    (byHand .failed).inbox = .move (.answer (byHand .failed).nextTicket .failed) :: [] := by
  refine ⟨by decide, by decide +kernel, ⟨?_, ?_⟩, rfl, List.not_mem_nil, Or.inl rfl, rfl⟩ <;> intro _ h <;> cases h
theorem witness_ReadReportsTheChannelBeforeTheTransport : ¬ channelLegal .mcp3004 4 ∧ (0 : NumT) < 5 := by decide
-- a handle that was closed, and one that was never opened
theorem witness_ClosedHandleFailsTheExchange :
    (closed .failed).Fresh ∧ (closed .failed).isOpen 7 = false ∧ (closed .failed).linkOf 7 = some 0 ∧ 0 ∉ (closed .failed).busy ∧
    (fresh .failed).isOpen 7 = false ∧ (fresh .failed).linkOf 7 = none ∧ Answer.failed.ofExchange ∧
    channelLegal .mcp3008 7 ∧ (0 : NumT) < 5 ∧
    (closed .failed).inbox = .move (.answer (closed .failed).nextTicket .failed) :: [] ∧
    (fresh .failed).inbox = .move (.answer (fresh .failed).nextTicket .failed) :: [] := by
  refine ⟨⟨?_, ?_⟩, rfl, rfl, List.not_mem_nil, rfl, rfl, Or.inl rfl, by decide, by decide, rfl, rfl⟩ <;>
    intro _ h <;> cases h
theorem witness_SreadReadsWithTheSessionsValues :
    (opened .failed).Fresh ∧ (opened .failed).session = .opened regs ∧ channelLegal regs.chip ((some 7).getD regs.chDefault) ∧
    channelLegal regs.chip ((none : Option Int).getD regs.chDefault) ∧
    findHandle regs.handle (opened .failed).handles = some ⟨0, true⟩ ∧ 0 ∉ (opened .failed).busy ∧
    Answer.failed.ofExchange ∧
    (opened .failed).inbox = .move (.answer (opened .failed).nextTicket .failed) :: [] := by
  refine ⟨⟨?_, ?_⟩, rfl, by decide, by decide, rfl, List.not_mem_nil, Or.inl rfl, rfl⟩ <;> intro _ h <;> cases h
theorem witness_SreadReportsABadChannel :
    (opened .failed).session = .opened regs ∧ (closed .failed).session = .closed regs ∧
    ¬ channelLegal regs.chip ((some 8).getD regs.chDefault) := by
  refine ⟨rfl, rfl, by decide⟩
theorem witness_SreadAfterCloseFails :
    (closed (.bytes [0x00#8, 0x02#8, 0x00#8])).Fresh ∧
    (closed (.bytes [0x00#8, 0x02#8, 0x00#8])).session = .closed regs ∧
    channelLegal regs.chip ((some 0).getD regs.chDefault) ∧
    (∀ l, (closed (.bytes [0x00#8, 0x02#8, 0x00#8])).linkOf regs.handle = some l →
      l ∉ (closed (.bytes [0x00#8, 0x02#8, 0x00#8])).busy) ∧
    (Answer.bytes [0x00#8, 0x02#8, 0x00#8]).ofExchange ∧
    (closed (.bytes [0x00#8, 0x02#8, 0x00#8])).inbox = .move (.answer 0 (.bytes [0x00#8, 0x02#8, 0x00#8])) :: [] := by
  refine ⟨⟨?_, ?_⟩, rfl, by decide, fun l _ => List.not_mem_nil, Or.inr ⟨_, rfl⟩, rfl⟩ <;> intro _ h <;> cases h
theorem witness_ConfigureOpensTheSession :
    (fresh (.handle 7)).Fresh ∧ (fresh (.handle 7)).session.sstate ≠ .opened ∧ (fresh (.handle 7)).sreadInFlight = false ∧
    (closed (.handle 8)).Fresh ∧ (closed (.handle 8)).session.sstate ≠ .opened ∧ (closed (.handle 8)).sreadInFlight = false ∧
    (0 : NumT) < (none : Option NumT).getD 5 ∧ (0 : Int) < 1 ∧
    (fresh (.handle 7)).inbox = .move (.answer (fresh (.handle 7)).nextTicket (.handle 7)) :: [] ∧
    (closed (.handle 8)).inbox = .move (.answer (closed (.handle 8)).nextTicket (.handle 8)) :: [] := by
  refine ⟨⟨?_, ?_⟩, by decide, rfl, ⟨?_, ?_⟩, by decide, rfl, by decide, by decide, rfl, rfl⟩ <;> intro _ h <;> cases h
theorem witness_ConfigureChecksItsOperandsInOrder :
    State.reset.session.sstate ≠ .opened ∧ State.reset.sreadInFlight = false ∧ (0b10#2 ≠ 0b11#2) ∧
    (some (0 : NumT)).getD 5 ≤ 0 ∧ (0 : NumT) < (none : Option NumT).getD 5 ∧ (0 : Int) ≤ 0 := by decide
theorem witness_ConfigureDefaultsToFiveVolts :
    (Operand.absent = .absent ∨ Operand.int 0 = .absent ∨ Operand.int 1 = .absent ∨ Operand.mode 0#2 = .absent) ∧
    (Operand.chip 0#2 = .absent ∨ Operand.int 0 = .absent ∨ Operand.int 1 = .absent ∨ Operand.absent = .absent) :=
  ⟨Or.inl rfl, Or.inr (Or.inr (Or.inr rfl))⟩
theorem witness_FailedOpenLeavesTheSlot :
    (fresh .failed).Fresh ∧ (fresh .failed).session.sstate ≠ .opened ∧ (fresh .failed).sreadInFlight = false ∧
    (0 : NumT) < (some (33 / 10 : NumT)).getD 5 ∧ (0 : Int) < 1000000 ∧
    (fresh .failed).inbox = .move (.answer (fresh .failed).nextTicket .failed) :: [] := by
  refine ⟨⟨?_, ?_⟩, by decide, rfl, by decide +kernel, by decide, rfl⟩ <;> intro _ h <;> cases h

/-! ### A state with requests in every phase -/

/-- An open session on link 0. On link 1, which is handle 8's, request 0 is in its exchange and request 1 waits; request 2 is
at DECODE and request 3 at SCALE. Request 4, an XFER, is in its exchange on link 2; request 5, an XFER on a handle that was never
opened, is in an exchange with no link. Request 6 is a CONFIGURE that waits for Open. -/
def rich (events : List Event) : State :=
  { State.reset with
    session := .opened regs
    contexts :=
      [⟨0, .read ⟨1, .mcp3008, 5⟩, ⟨0x01#8, 0x90#8, 0x00#8⟩, 8, true, .exch (some 1) true⟩,
       ⟨1, .xfer, ⟨0x00#8, 0x00#8, 0x00#8⟩, 8, true, .wait⟩,
       ⟨2, .read ⟨0, .mcp3002, 5⟩, ⟨0x01#8, 0x80#8, 0x00#8⟩, 8, true, .decode [0x12#8, 0x03#8, 0xE8#8]⟩,
       ⟨3, .read ⟨3, .mcp3004, 5⟩, ⟨0x01#8, 0xB0#8, 0x00#8⟩, 8, true, .scale 512#10⟩,
       ⟨4, .xfer, ⟨0x01#8, 0x90#8, 0x00#8⟩, 10, true, .exch (some 2) true⟩,
       ⟨5, .xfer, ⟨0x01#8, 0x90#8, 0x00#8⟩, 12, true, .exch none false⟩]
    opening := [⟨6, .mcp3008, 5, 0, 1000000, .mode0⟩]
    busy := [1, 2]
    handles := [(7, ⟨0, true⟩), (8, ⟨1, true⟩), (10, ⟨2, true⟩)]
    nextTicket := 7
    inbox := events }

/-- A closed session with an SREAD in its exchange, which can only fail, and a CONFIGURE that waits for Open. -/
def doomed (events : List Event) : State :=
  { State.reset with
    session := .closed regs
    contexts := [⟨0, .sread ⟨0, .mcp3008, 5⟩, ⟨0x01#8, 0x80#8, 0x00#8⟩, 7, false, .exch (some 0) false⟩]
    opening := [⟨1, .mcp3008, 5, 0, 1000000, .mode0⟩]
    busy := [0]
    handles := [(7, ⟨0, false⟩)]
    nextTicket := 2
    inbox := events }

/-- No session yet, and a CONFIGURE that waits for Open. -/
def pending : State := { State.reset with opening := [⟨0, .mcp3008, 5, 0, 1000000, .mode0⟩], nextTicket := 1 }

/-- An open session with a CLOSE that waits for Close. -/
def releasing : State :=
  { State.reset with session := .opened regs, handles := [(7, ⟨0, true⟩)], closing := some 0, nextTicket := 1 }

theorem five_pos : (0 : NumT) < 5 := by decide

theorem rich_inv (events : List Event) : (rich events).Inv where
  tickets t := by
    constructor <;> intro h
    · have h7 : t < 7 := h
      interval_cases t <;> rfl
    · have h7 : 7 ≤ t := h
      have e : ∀ k, k < 7 → k ≠ t := fun k hk => by omega
      simp [State.ticketCount, rich, State.reset, e]
  exclusive l := by
    constructor <;> intro h
    · obtain rfl | rfl : l = 1 ∨ l = 2 := by simpa [rich] using h
      · rfl
      · rfl
    · have h1 : ¬ 1 = l := fun e => h (by simp [rich, e])
      have h2 : ¬ 2 = l := fun e => h (by simp [rich, e])
      simp [State.holders, rich, State.reset, Ctx.holds, h1, h2]
  busySorted := by simp [rich]
  outsideSorted := List.Pairwise.nil
  handlesSorted := by simp [rich]
  contexts c hc := by
    simp only [rich, List.mem_cons, List.not_mem_nil, or_false] at hc
    rcases hc with rfl | rfl | rfl | rfl | rfl | rfl <;>
      exact ⟨by rintro v hv; cases hv <;> exact ⟨by decide, five_pos, by decide⟩, by rintro _ ⟨⟩ <;> decide,
        by rintro _ ⟨⟩ <;> decide, by rintro _ _ ⟨⟩ _ <;> rfl⟩
  openings o ho := by
    obtain rfl : o = _ := List.mem_singleton.1 ho
    exact ⟨five_pos, by decide⟩
  sessionGood := ⟨five_pos, by decide, rfl⟩
  closingOpen h := rfl

theorem doomed_inv (events : List Event) : (doomed events).Inv where
  tickets t := by
    constructor <;> intro h
    · have h2 : t < 2 := h
      interval_cases t <;> rfl
    · have h2 : 2 ≤ t := h
      have e : ∀ k, k < 2 → k ≠ t := fun k hk => by omega
      simp [State.ticketCount, doomed, State.reset, e]
  exclusive l := by
    constructor <;> intro h
    · obtain rfl : l = 0 := by simpa [doomed] using h
      rfl
    · have h1 : ¬ 0 = l := fun e => h (by simp [doomed, e])
      simp [State.holders, doomed, State.reset, Ctx.holds, h1]
  busySorted := by simp [doomed]
  outsideSorted := List.Pairwise.nil
  handlesSorted := by simp [doomed]
  contexts c hc := by
    simp only [doomed, List.mem_cons, List.not_mem_nil, or_false] at hc
    subst hc
    exact ⟨by rintro v hv; cases hv; exact ⟨by decide, five_pos, by decide⟩, by rintro _ ⟨⟩, by rintro _ ⟨⟩,
      by rintro _ _ ⟨⟩ h; cases h⟩
  openings o ho := by
    obtain rfl : o = _ := List.mem_singleton.1 ho
    exact ⟨five_pos, by decide⟩
  sessionGood := ⟨five_pos, by decide⟩
  closingOpen h := absurd rfl h

theorem pending_inv : pending.Inv where
  tickets t := by
    constructor <;> intro h
    · have h1 : t < 1 := h
      interval_cases t; rfl
    · have h1 : 1 ≤ t := h
      have e : 0 ≠ t := by omega
      simp [State.ticketCount, pending, State.reset, e]
  exclusive l := ⟨fun h => absurd h List.not_mem_nil, fun _ => rfl⟩
  busySorted := List.Pairwise.nil
  outsideSorted := List.Pairwise.nil
  handlesSorted := List.Pairwise.nil
  contexts c hc := absurd hc List.not_mem_nil
  openings o ho := by
    obtain rfl : o = _ := List.mem_singleton.1 ho
    exact ⟨five_pos, by decide⟩
  sessionGood := trivial
  closingOpen h := absurd rfl h

theorem releasing_inv : releasing.Inv where
  tickets t := by
    constructor <;> intro h
    · have h1 : t < 1 := h
      interval_cases t; rfl
    · have h1 : 1 ≤ t := h
      have e : 0 ≠ t := by omega
      simp [State.ticketCount, releasing, State.reset, e]
  exclusive l := ⟨fun h => absurd h List.not_mem_nil, fun _ => rfl⟩
  busySorted := List.Pairwise.nil
  outsideSorted := List.Pairwise.nil
  handlesSorted := by simp [releasing]
  contexts c hc := absurd hc List.not_mem_nil
  openings o ho := absurd ho List.not_mem_nil
  sessionGood := ⟨five_pos, by decide, rfl⟩
  closingOpen h := rfl

/-- The context of request `t` in `rich`. -/
def ctx (t : Nat) : Ctx := ((rich []).contexts[t]?).getD ⟨0, .xfer, ⟨0, 0, 0⟩, 0, true, .wait⟩

theorem witness_OnlyDecodeDeliversMalformedResponse :
    ∃ s', step (rich [.request (.hostop 6#3 [.bytes [0x01#8, 0x02#8]])]) = .next s' ∧
      (7, Reply.fail (.malformedResponse 2)) ∈ s'.replies ∧
      (7, Reply.fail (.malformedResponse 2)) ∉ (rich []).replies :=
  ⟨_, rfl, List.mem_cons_self, List.not_mem_nil⟩
theorem witness_BlockedRequestSendsNothing :
    (∀ a rest, (rich []).inbox ≠ .move (.answer (rich []).nextTicket a) :: rest) ∧
    (∀ a rest, (doomed []).inbox ≠ .move (.answer (doomed []).nextTicket a) :: rest) ∧
    (rich []).session = .opened regs ∧ (doomed []).session = .closed regs ∧
    channelLegal regs.chip ((some 7).getD regs.chDefault) ∧ channelLegal .mcp3008 0 ∧ (0 : NumT) < 5 ∧
    (rich []).findCtx 1 = some (ctx 1) ∧ (ctx 1).phase = .wait ∧ (rich []).linkOf (ctx 1).handle = some 1 ∧
    1 ∈ (rich []).busy :=
  ⟨fun _ _ h => (by cases h), fun _ _ h => (by cases h), rfl, rfl, by decide, by decide, five_pos, rfl, rfl, rfl, by decide⟩
-- the link is busy while the answer is the next event: for XFER and READ on handle 8, for SREAD on a closed session
theorem witness_BlockedRequestSendsNothing_busy :
    (rich [.move (.answer 7 .failed)]).Fresh ∧ (rich []).linkOf 8 = some 1 ∧ 1 ∈ (rich []).busy ∧
    (rich [.move (.answer 7 .failed)]).inbox = .move (.answer (rich []).nextTicket .failed) :: [] ∧
    (doomed [.move (.answer 2 .failed)]).Fresh ∧ (doomed []).linkOf regs.handle = some 0 ∧ 0 ∈ (doomed []).busy ∧
    (doomed [.move (.answer 2 .failed)]).inbox = .move (.answer (doomed []).nextTicket .failed) :: [] :=
  ⟨⟨by decide, by decide⟩, rfl, by decide, rfl, ⟨by decide, by decide⟩, rfl, by decide, rfl⟩
theorem witness_AnyWaitingRequestMayAcquireAFreeLink :
    ({ rich [] with contexts := [ctx 1], busy := [] } : State).findCtx 1 = some (ctx 1) ∧ (ctx 1).phase = .wait ∧
    findHandle (ctx 1).handle (rich []).handles = some ⟨1, true⟩ ∧ (1 : Link) ∉ ([] : List Link) ∧
    findHandle (ctx 1).handle State.reset.handles = none := ⟨rfl, rfl, rfl, List.not_mem_nil, rfl⟩
-- a READ and an XFER on a link, an XFER with no link, an SREAD that can only fail
theorem witness_EveryAnswerReleasesTheLink :
    (rich []).Inv ∧ (ctx 0 ∈ (rich []).contexts ∧ (ctx 0).phase = .exch (some 1) true ∧ (ctx 0).origin ≠ .xfer) ∧
    (ctx 4 ∈ (rich []).contexts ∧ (ctx 4).phase = .exch (some 2) true ∧ (ctx 4).origin = .xfer) ∧
    (ctx 5 ∈ (rich []).contexts ∧ (ctx 5).phase = .exch none false) ∧
    (Answer.bytes [0x01#8, 0x02#8, 0x03#8]).ofExchange ∧ [0x01#8, 0x02#8, 0x03#8].length = 3 ∧
    (Answer.bytes [0x01#8]).ofExchange ∧ (∀ bs, Answer.bytes [0x01#8] = .bytes bs → bs.length ≠ 3) ∧ Answer.failed.ofExchange :=
  ⟨rich_inv [], ⟨by decide, rfl, by decide⟩, ⟨by decide, rfl, rfl⟩, ⟨by decide, rfl⟩, Or.inr ⟨_, rfl⟩, rfl, Or.inr ⟨_, rfl⟩,
    fun bs h => (by cases h; decide), Or.inl rfl⟩
-- CONFIGUREs and CLOSEs that wait: the issue, and the answer that comes later
theorem witness_ConfigureOpensTheSession_later :
    (∀ a rest, State.reset.inbox ≠ .move (.answer State.reset.nextTicket a) :: rest) ∧
    pending.Inv ∧ ⟨0, .mcp3008, 5, 0, 1000000, .mode0⟩ ∈ pending.opening ∧ pending.session.sstate ≠ .opened ∧
    pending.sreadInFlight = false :=
  ⟨fun _ _ h => (by cases h), pending_inv, List.mem_cons_self, by decide, rfl⟩
theorem witness_FailedOpenLeavesTheSlot_later :
    (rich []).Inv ∧ ⟨6, .mcp3008, 5, 0, 1000000, .mode0⟩ ∈ (rich []).opening := ⟨rich_inv [], List.mem_cons_self⟩
theorem witness_CloseReleasesTheHandle_later :
    (∀ a rest, (rich []).inbox ≠ .move (.answer (rich []).nextTicket a) :: rest) ∧ releasing.Inv ∧
    releasing.session = .opened regs ∧ releasing.sreadInFlight = false ∧ releasing.closing = some 0 :=
  ⟨fun _ _ h => (by cases h), releasing_inv, rfl, rfl, rfl⟩
theorem witness_OneStepReadEqualsStepByStepRead :
    (rich []).Inv ∧ channelLegal .mcp3008 7 ∧ (0 : NumT) < 5 ∧ findHandle 7 (rich []).handles = some ⟨0, true⟩ ∧
    0 ∉ (rich []).busy ∧ Answer.failed.ofExchange :=
  ⟨rich_inv [], by decide, five_pos, rfl, by decide, Or.inl rfl⟩
theorem witness_DecodeAndScaleFollowTheExchange :
    (rich []).Inv ∧ ctx 2 ∈ (rich []).contexts ∧ (ctx 2).phase = .decode [0x12#8, 0x03#8, 0xE8#8] ∧
    ctx 3 ∈ (rich []).contexts ∧ (ctx 3).phase = .scale 512#10 ∧ (ctx 3).origin.vals = some ⟨3, .mcp3004, 5⟩ :=
  ⟨rich_inv [], by decide, rfl, by decide, rfl, rfl⟩
theorem witness_LifeCycleRefusals :
    (opened .failed).session = .opened regs ∧
    ((doomed []).session.sstate ≠ .opened ∧ (doomed []).sreadInFlight = true) ∧
    ({ doomed [] with session := .opened regs } : State).sreadInFlight = true ∧ State.reset.session = .unconfigured ∧
    (releasing.session = .opened regs ∧ releasing.sreadInFlight = false ∧ releasing.closing ≠ none) ∧
    ((rich []).Inv ∧ ⟨6, .mcp3008, 5, 0, 1000000, .mode0⟩ ∈ (rich []).opening ∧ (rich []).session = .opened regs) ∧
    ((doomed []).Inv ∧ ⟨1, .mcp3008, 5, 0, 1000000, .mode0⟩ ∈ (doomed []).opening) ∧
    ({ releasing with contexts := (doomed []).contexts } : State).sreadInFlight = true :=
  ⟨rfl, ⟨by decide, rfl⟩, rfl, rfl, ⟨rfl, rfl, by decide⟩, ⟨rich_inv [], List.mem_cons_self, rfl⟩,
    ⟨doomed_inv [], List.mem_cons_self⟩, rfl⟩
theorem witness_SreadBehavesAsRead : (rich []).Inv ∧ (rich []).session = .opened regs := ⟨rich_inv [], rfl⟩
theorem witness_NoReadingAfterClose :
    (doomed [.move (.answer 0 (.bytes [0x00#8, 0x02#8, 0x00#8]))]).Inv ∧
    ∃ s', step (doomed [.move (.answer 0 (.bytes [0x00#8, 0x02#8, 0x00#8]))]) = .next s' ∧
      ∃ c ∈ (doomed []).contexts, c.usable = false ∧
        (c.ticket, Reply.fail (.transportError .exchangeFailed)) ∈ s'.replies :=
  ⟨doomed_inv _, _, rfl, _, List.mem_cons_self, rfl, List.mem_cons_self⟩
theorem witness_CloseReleasesTheHandle :
    (rich [.move (.answer 7 .done)]).Inv ∧ (rich [.move (.answer 7 .done)]).session = .opened regs ∧
    (rich [.move (.answer 7 .done)]).sreadInFlight = false ∧ (rich [.move (.answer 7 .done)]).closing = none ∧
    (rich [.move (.answer 7 .done)]).inbox = .move (.answer (rich []).nextTicket .done) :: [] :=
  ⟨rich_inv _, rfl, rfl, rfl, rfl⟩
theorem witness_SecondCloseDoesNothing : (closed .failed).session = .closed regs := rfl
theorem witness_StepRunsTheDecodedInstruction :
    (rich [.request (.hostop 2#3 [])]).inbox = .request (.hostop 2#3 []) :: [] ∧ decode (.hostop 2#3 []) = .ok .close ∧
    decode (.hostop 2#3 [.absent]) = .error .operandShape ∧ (rich []).inbox = [] := ⟨rfl, rfl, rfl, rfl⟩
theorem witness_DecodeOfEncodeGivesTheInstruction :
    (∀ c, Instr.close ≠ .cmd24Mcp3002 c) ∧ (∀ cc, Instr.close ≠ .cmd24Mcp3004 cc) ∧
    (∀ ccc, Instr.close ≠ .cmd24Mcp3008 ccc) :=
  ⟨fun _ h => (by cases h), fun _ h => (by cases h), fun _ h => (by cases h)⟩
theorem witness_DecodedWordsMatchTheirRow : decode (.cmd24 2#2 0x01F000#24) = .ok .cmd24Mcp3008Ch7 := by rfl

/-! ### Steps and runs -/

theorem witness_EveryStepKeepsTheInvariant :
    (rich [.move (.answer 0 .failed)]).Inv ∧ ∃ s', step (rich [.move (.answer 0 .failed)]) = .next s' := ⟨rich_inv _, _, rfl⟩
-- a READ in its exchange on link 1 while another user holds link 3
theorem witness_ExchangesOnOneLinkNeverOverlap :
    ∃ s, Reached [.move (.outsideTake 3), .move (.outsideOpen 4 1),
        .request (.hostop 3#3 [.chip 2#2, .int 7, .num 5, .handle 4]), .move (.advance 0)] s ∧
      s.contexts.countP (fun c => c.holds 1) = 1 ∧ 1 ∈ s.busy ∧ 1 ∉ s.outside ∧ 3 ∈ s.outside ∧ 3 ∈ s.busy :=
  ⟨_, ⟨4, rfl⟩, by decide, by decide, by decide, by decide, by decide⟩
-- a READ answered and not yet decoded; a session
theorem witness_ReachedContextsAreGood :
    (∃ s, Reached [.move (.outsideOpen 4 1), .request (.hostop 3#3 [.chip 2#2, .int 7, .num 5, .handle 4]),
        .move (.advance 0), .move (.answer 0 (.bytes [0xFF#8, 0xFF#8, 0xFF#8]))] s ∧
      ∃ c ∈ s.contexts, c.origin.vals = some ⟨7, .mcp3008, 5⟩ ∧ c.phase = .decode [0xFF#8, 0xFF#8, 0xFF#8]) ∧
    (∃ s, Reached [.request (.hostop 0#3 [.chip 2#2, .int 0, .int 1000000, .absent, .mode 0#2]), .move (.answer 0 (.handle 7))] s ∧
      s.session = .opened regs) :=
  ⟨⟨_, ⟨4, rfl⟩, _, List.mem_cons_self, rfl, rfl⟩, ⟨_, ⟨2, rfl⟩, rfl⟩⟩
theorem witness_OpenSessionIsImmutable :
    (rich [.request (.hostop 2#3 []), .move (.answer 7 .done)]).session = .opened regs ∧
    ∃ s', step (rich [.request (.hostop 2#3 []), .move (.answer 7 .done)]) = .next s' ∧ s'.session = .closed regs :=
  ⟨rfl, _, rfl, rfl⟩
theorem witness_SlotDoesNotChangeUnderAnSread :
    (doomed [.move (.answer 0 .failed)]).sreadInFlight = true ∧ ∃ s', step (doomed [.move (.answer 0 .failed)]) = .next s' :=
  ⟨rfl, _, rfl⟩
theorem witness_NoWayBackToUnconfigured : ∃ s', step State.reset = .next s' ∧ s'.session = .unconfigured := ⟨_, rfl, rfl⟩
theorem witness_UnansweredExchangeHangsItsLink :
    (rich [.move (.advance 1)]).Inv ∧ ctx 0 ∈ (rich []).contexts ∧ (ctx 0).phase = .exch (some 1) true ∧
    (∀ a, Event.move (.answer (ctx 0).ticket a) ∉ (rich [.move (.advance 1)]).inbox) ∧
    ∃ s', Sys2Proof.core.run 2 (rich [.move (.advance 1)]) = .next s' :=
  ⟨rich_inv _, by decide, rfl, fun a h => (by cases h with | tail _ h => cases h), _, rfl⟩
theorem witness_BlockedOnlyByAnExchangeInFlight :
    (rich []).Inv ∧ ctx 1 ∈ (rich []).contexts ∧ (ctx 1).phase = .wait ∧ (rich []).linkOf (ctx 1).handle = some 1 ∧
    1 ∈ (rich []).busy := ⟨rich_inv _, by decide, rfl, rfl, by decide⟩
theorem witness_PhasesNeverGoBackwards :
    (rich [.move (.advance 2)]).Inv ∧ ∃ s', step (rich [.move (.advance 2)]) = .next s' ∧ ctx 2 ∈ (rich []).contexts ∧
      ∃ c' ∈ s'.contexts, c'.ticket = (ctx 2).ticket ∧ c'.phase = .scale 1000#10 := by
  refine ⟨rich_inv _, _, rfl, by decide, _, List.mem_cons_of_mem _ (List.mem_cons_of_mem _ List.mem_cons_self), rfl, ?_⟩
  decide
theorem witness_OnlyAcquireCallsExchange :
    (rich []).Inv ∧ (∃ s', perform (.advance 1) (rich []) = .next s') ∧
    ∃ s', perform (.advance 1) { rich [] with contexts := [ctx 1], busy := [] } = .next s' ∧ s'.calls ≠ [] :=
  ⟨rich_inv _, ⟨_, rfl⟩, ⟨_, rfl, fun h => (by cases h)⟩⟩
theorem witness_EveryRequestHasAtMostOneReply :
    ∃ s, Reached [.request (.hostop 4#3 [.chip 0#2, .int 0])] s ∧ 0 < s.nextTicket ∧
      s.replies.countP (fun r => decide (r.1 = 0)) = 1 := ⟨_, ⟨1, rfl⟩, by decide, by decide⟩
theorem witness_LogsOnlyGrow : ∃ s', step (rich [.move (.answer 0 .failed)]) = .next s' := ⟨_, rfl⟩
theorem witness_LogsAreNeverRead :
    (rich []).withoutLogs = ({ rich [] with calls := [.close 3] } : State).withoutLogs ∧
    (∃ s', step (rich []) = .next s') ∧
    step { fresh .failed with inbox := [.request (.hostop 2#3 [])] } = .refused .noSession := ⟨rfl, ⟨_, rfl⟩, rfl⟩
theorem witness_UnitsLookAtNoState :
    ∃ s', exec (.scale 512 5) State.reset = .next s' ∧ s'.replies = [(0, .ok (.reading (5 / 2)))] :=
  ⟨_, rfl, by decide +kernel⟩
theorem witness_OnlyConfigureAndCloseTouchTheSlotAndTheHandles :
    ∃ s', exec (.sread (some 1)) (rich []) = .next s' ∧
      (∀ chip chDefault clockHz vref mode, Instr.sread (some 1) ≠ .configure chip chDefault clockHz vref mode) ∧
      Instr.sread (some 1) ≠ .close :=
  ⟨_, rfl, fun _ _ _ _ _ h => (by cases h), fun h => (by cases h)⟩

end Sys2Proof.Tests
end

section
/-! # State: the invariant, the slot, the phases (10_state.md)

Support: what each update of a step does to the tickets, the locks, the contexts and the slot; then the statements of this
family. -/

namespace Sys2Proof.Machine

/-! ## The end of a session -/

section

variable (s : State) (t : Nat) (r : Regs) (a : Answer)

@[simp] theorem State.endSession_session : (s.endSession t r a).session = .closed r := by simp [State.endSession]
@[simp] theorem State.endSession_contexts : (s.endSession t r a).contexts = s.contexts := by simp [State.endSession]
@[simp] theorem State.endSession_opening : (s.endSession t r a).opening = s.opening := by simp [State.endSession]
@[simp] theorem State.endSession_closing : (s.endSession t r a).closing = none := by simp [State.endSession]
@[simp] theorem State.endSession_busy : (s.endSession t r a).busy = s.busy := by simp [State.endSession]
@[simp] theorem State.endSession_outside : (s.endSession t r a).outside = s.outside := by simp [State.endSession]
@[simp] theorem State.endSession_nextTicket : (s.endSession t r a).nextTicket = s.nextTicket := by simp [State.endSession]
@[simp] theorem State.endSession_replies : (s.endSession t r a).replies = s.replies ++ [(t, .ok .none)] := by simp [State.endSession]
@[simp] theorem State.endSession_handles : (s.endSession t r a).handles = (s.releaseHandle r.handle).handles := by
  simp only [State.endSession, State.deliver_handles, State.traceClose_handles]
  cases hl : s.linkOf r.handle with
  | none => rw [releaseHandle_handles_none hl, releaseHandle_handles_none (by exact hl)]
  | some l => rw [releaseHandle_handles_some hl, releaseHandle_handles_some (by exact hl)]

end

/-! ## Tickets -/

/-- Every accepted request is in exactly one place, in flight or answered once, and no other name is in use. -/
def State.TicketsGood (s : State) : Prop :=
  ∀ t, (t < s.nextTicket → s.ticketCount t = 1) ∧ (s.nextTicket ≤ t → s.ticketCount t = 0)

theorem State.TicketsGood.keep {s s' : State} (h : s.TicketsGood) (hn : s'.nextTicket = s.nextTicket)
    (hc : ∀ u, s'.ticketCount u = s.ticketCount u) : s'.TicketsGood := by
  intro t
  rw [hn, hc]
  exact h t

theorem State.TicketsGood.accept {s s' : State} (h : s.TicketsGood) (hn : s'.nextTicket = s.nextTicket + 1)
    (hc : ∀ u, s'.ticketCount u = s.ticketCount u + if u = s.nextTicket then 1 else 0) : s'.TicketsGood := by
  intro t
  obtain ⟨hlt, hge⟩ := h t
  rw [hn, hc]
  by_cases ht : t = s.nextTicket
  · simp [ht, (h s.nextTicket).2 le_rfl]
  · simp only [ht, if_false, Nat.add_zero]
    exact ⟨fun h' => hlt (by omega), fun h' => hge (by omega)⟩

theorem State.TicketsGood.le_one {s : State} (h : s.TicketsGood) (t : Nat) : s.ticketCount t ≤ 1 := by
  rcases Nat.lt_or_ge t s.nextTicket with ht | ht
  · exact ((h t).1 ht).le
  · exact ((h t).2 ht).trans_le (Nat.zero_le 1)

/-- Dropping the entries with key `t` leaves the counts of the other keys. -/
theorem countP_key_filter_ne {α : Type} (key : α → Nat) (t u : Nat) (xs : List α) :
    (xs.filter fun x => decide (key x ≠ t)).countP (fun x => decide (key x = u))
      = if u = t then 0 else xs.countP fun x => decide (key x = u) := by
  rw [List.countP_filter]
  by_cases hu : u = t
  · subst hu
    simp
  · rw [if_neg hu]
    refine List.countP_congr fun x _ => ?_
    simp only [Bool.and_eq_true, decide_eq_true_eq]
    exact ⟨And.left, fun hx => ⟨hx, fun hxt => hu (hx.symm.trans hxt)⟩⟩

theorem countP_key_pos {α : Type} {key : α → Nat} {t : Nat} {xs : List α} {x : α} (hx : x ∈ xs) (hk : key x = t) :
    0 < xs.countP fun x => decide (key x = t) :=
  List.countP_pos_iff.2 ⟨x, hx, decide_eq_true hk⟩

theorem State.ticketCount_replyNow (s : State) (r : Reply) (u : Nat) :
    (s.replyNow r).ticketCount u = s.ticketCount u + if u = s.nextTicket then 1 else 0 := by
  simp [State.ticketCount, List.countP_append, List.countP_cons, Nat.add_assoc, eq_comm]

theorem State.ticketCount_enqueue (s : State) (o : Origin) (cmd : Frame) (h : Handle) (usable : Bool) (u : Nat) :
    (s.enqueue o cmd h usable).ticketCount u = s.ticketCount u + if u = s.nextTicket then 1 else 0 := by
  simp only [State.ticketCount, State.enqueue_contexts, State.enqueue_opening, State.enqueue_closing, State.enqueue_replies,
    List.countP_append, List.countP_singleton, decide_eq_true_eq, eq_comm (a := u)]
  omega

theorem State.ticketCount_startOpen {s : State} {o : Opening} (ho : o.ticket = s.nextTicket) (u : Nat) :
    (s.startOpen o).ticketCount u = s.ticketCount u + if u = s.nextTicket then 1 else 0 := by
  simp only [State.ticketCount, State.startOpen_contexts, State.startOpen_opening, State.startOpen_closing,
    State.startOpen_replies, List.countP_append, List.countP_singleton, decide_eq_true_eq, ho, eq_comm (a := u)]
  omega

theorem State.ticketCount_startClose {s : State} (hc : s.closing = none) (r : Regs) (u : Nat) :
    (s.startClose r).ticketCount u = s.ticketCount u + if u = s.nextTicket then 1 else 0 := by
  simp only [State.ticketCount, State.startClose_contexts, State.startClose_opening, State.startClose_closing,
    State.startClose_replies, hc, Option.toList_some, Option.toList_none, List.count_singleton, List.count_nil, beq_iff_eq,
    eq_comm (a := u)]
  omega

/-- A CONFIGURE that is answered leaves the list of those in flight and enters the replies. -/
theorem State.ticketCount_answerOpening {s s' : State} {o : Opening} {r : Reply} (h : s.TicketsGood) (ho : o ∈ s.opening)
    (hctx : s'.contexts = s.contexts) (hop : s'.opening = s.opening.filter fun o' => decide (o'.ticket ≠ o.ticket))
    (hcl : s'.closing = s.closing) (hr : s'.replies = s.replies ++ [(o.ticket, r)]) (u : Nat) :
    s'.ticketCount u = s.ticketCount u := by
  have hpos := countP_key_pos (key := Opening.ticket) ho rfl
  have hone := h.le_one o.ticket
  simp only [State.ticketCount, hctx, hop, hcl, hr, countP_key_filter_ne, List.countP_append, List.countP_singleton,
    decide_eq_true_eq] at hone ⊢
  by_cases hu : u = o.ticket
  · subst hu
    simp only [if_true]
    omega
  · simp only [hu, Ne.symm hu, if_false]
    omega

theorem State.ticketCount_endSession {s : State} {t : Nat} (hc : s.closing = some t) (r : Regs) (a : Answer) (u : Nat) :
    (s.endSession t r a).ticketCount u = s.ticketCount u := by
  simp only [State.ticketCount, State.endSession_contexts, State.endSession_opening, State.endSession_closing,
    State.endSession_replies, hc, Option.toList_some, Option.toList_none, List.count_singleton, List.count_nil, beq_iff_eq,
    List.countP_append, List.countP_singleton, decide_eq_true_eq]
  omega

/-- A request that ends leaves the contexts and enters the replies. -/
theorem State.ticketCount_finish {s : State} {t : Nat} {c : Ctx} (h : s.TicketsGood) (hf : s.findCtx t = some c) (r : Reply)
    (u : Nat) : (s.finish t r).ticketCount u = s.ticketCount u := by
  obtain ⟨hc, ht⟩ := findCtx_some hf
  have hpos := countP_key_pos (key := Ctx.ticket) hc ht
  have hone := h.le_one t
  simp only [State.ticketCount, State.finish_contexts, State.finish_opening, State.finish_closing, State.finish_replies,
    dropCtx, countP_key_filter_ne, List.countP_append, List.countP_singleton, decide_eq_true_eq] at hone ⊢
  by_cases hu : u = t
  · subst hu
    simp only [if_true]
    omega
  · simp only [hu, Ne.symm hu, if_false]
    omega

/-! ## Locks -/

/-- BUSY of a link is 1 exactly when one agent holds the link, and never two do (60_exceptions.md R240). -/
def State.LocksGood (s : State) : Prop :=
  ∀ l, (l ∈ s.busy → s.holders l = 1) ∧ (l ∉ s.busy → s.holders l = 0)

theorem State.LocksGood.keep {s s' : State} (h : s.LocksGood) (hb : ∀ k, k ∈ s'.busy ↔ k ∈ s.busy)
    (hh : ∀ k, s'.holders k = s.holders k) : s'.LocksGood := by
  intro k
  rw [hb, hh]
  exact h k

/-- One agent takes the lock of a free link (or of no link). -/
theorem State.LocksGood.take {s s' : State} {link : Option Link} (h : s.LocksGood) (hfree : s.linkBusy link = false)
    (hb : ∀ k, k ∈ s'.busy ↔ link = some k ∨ k ∈ s.busy)
    (hh : ∀ k, s'.holders k = s.holders k + if link = some k then 1 else 0) : s'.LocksGood := by
  intro k
  rw [hb, hh]
  by_cases hk : link = some k
  · subst hk
    have hnot : k ∉ s.busy := by simpa using hfree
    simp [(h k).2 hnot]
  · simpa [hk] using h k

/-- The one agent that holds a link frees it. -/
theorem State.LocksGood.free {s s' : State} {link : Option Link} (h : s.LocksGood)
    (hb : ∀ k, k ∈ s'.busy ↔ link ≠ some k ∧ k ∈ s.busy)
    (hh : ∀ k, s'.holders k + (if link = some k then 1 else 0) = s.holders k) : s'.LocksGood := by
  intro k
  have hhk := hh k
  obtain ⟨hone, hzero⟩ := h k
  rw [hb]
  by_cases hk : link = some k
  · rw [if_pos hk] at hhk
    refine ⟨fun hx => absurd hk hx.1, fun _ => ?_⟩
    by_cases hm : k ∈ s.busy
    · have := hone hm
      omega
    · have := hzero hm
      omega
  · rw [if_neg hk, Nat.add_zero] at hhk
    simpa [hk, hhk] using h k

/-- The link whose lock a request in this phase holds. -/
def Phase.heldLink (p : Phase) : Option Link :=
  match p with
  | .exch link _ => link
  | .wait => none
  | .decode _ => none
  | .scale _ => none

theorem Ctx.holds_eq (l : Link) (c : Ctx) : c.holds l = decide (c.phase.heldLink = some l) := by
  unfold Ctx.holds Phase.heldLink
  cases c.phase with
  | exch link live => cases link <;> simp
  | wait => simp
  | decode _ => simp
  | scale _ => simp

/-- What a new phase of request `t` changes in the count of the holders among the contexts. -/
theorem countP_holds_setPhase {t : Nat} {cs : List Ctx} {c : Ctx} (hc : c ∈ cs) (ht : c.ticket = t)
    (hone : cs.countP (fun d => decide (d.ticket = t)) ≤ 1) (p : Phase) (l : Link) :
    (setPhase t p cs).countP (fun d => d.holds l) + (if c.phase.heldLink = some l then 1 else 0)
      = cs.countP (fun d => d.holds l) + if p.heldLink = some l then 1 else 0 := by
  obtain ⟨as, bs, rfl, has, hbs⟩ := exists_split hc ht hone
  rw [setPhase_split has hbs ht]
  simp only [List.countP_append, List.countP_cons, Ctx.holds_eq, decide_eq_true_eq]
  omega

/-- What the end of request `t` changes in the count of the holders among the contexts. -/
theorem countP_holds_dropCtx {t : Nat} {cs : List Ctx} {c : Ctx} (hc : c ∈ cs) (ht : c.ticket = t)
    (hone : cs.countP (fun d => decide (d.ticket = t)) ≤ 1) (l : Link) :
    (dropCtx t cs).countP (fun d => d.holds l) + (if c.phase.heldLink = some l then 1 else 0)
      = cs.countP (fun d => d.holds l) := by
  obtain ⟨as, bs, rfl, has, hbs⟩ := exists_split hc ht hone
  rw [dropCtx_split has hbs ht]
  simp only [List.countP_append, List.countP_cons, Ctx.holds_eq, decide_eq_true_eq]
  omega

theorem State.mem_busy_lockLink {s : State} {link : Option Link} {k : Link} :
    k ∈ (s.lockLink link).busy ↔ link = some k ∨ k ∈ s.busy := by
  cases link with
  | none => simp
  | some l => simp [eq_comm]

theorem State.lockLink_busy_sorted {s : State} {link : Option Link} (hs : s.busy.Pairwise (· < ·))
    (hfree : s.linkBusy link = false) : (s.lockLink link).busy.Pairwise (· < ·) := by
  cases link with
  | none => exact hs
  | some l => exact takeLink_sorted hs (by simpa using hfree)

theorem State.mem_busy_unlockLink {s : State} {link : Option Link} {k : Link} (hs : s.busy.Pairwise (· < ·)) :
    k ∈ (s.unlockLink link).busy ↔ link ≠ some k ∧ k ∈ s.busy := by
  cases link with
  | none => simp
  | some l => simp [mem_erase_sorted hs, eq_comm]

theorem State.unlockLink_busy_sorted {s : State} (link : Option Link) (hs : s.busy.Pairwise (· < ·)) :
    (s.unlockLink link).busy.Pairwise (· < ·) := by
  cases link with
  | none => exact hs
  | some l => exact erase_sorted l hs

theorem State.traceExchange_unlockLink (s : State) (link : Option Link) (a : Answer) (link' : Option Link) :
    (s.unlockLink link).traceExchange link' a = (s.traceExchange link' a).unlockLink link := by
  cases link <;> rfl

theorem count_takeLink (k l : Link) (ls : List Link) : (takeLink l ls).count k = ls.count k + if l = k then 1 else 0 := by
  rw [takeLink, (List.perm_orderedInsert (· ≤ ·) l ls).count_eq, List.count_cons]
  simp

/-! ## Contexts and the slot -/

/-- A request in a new phase meets R38 if that phase does. -/
theorem good_of_mem_setPhase {t : Nat} {p : Phase} {cs : List Ctx} (hcs : ∀ c ∈ cs, c.Good)
    (hp : ∀ c ∈ cs, c.ticket = t → Ctx.Good { c with phase := p }) : ∀ c ∈ setPhase t p cs, c.Good := by
  intro c hc
  obtain ⟨d, hd, ⟨hdt, rfl⟩ | ⟨-, rfl⟩⟩ := mem_setPhase hc
  · exact hp d hd hdt
  · exact hcs c hd

theorem Ctx.Good.wait_of_vals {c : Ctx} (hp : c.phase = .wait)
    (hv : ∀ v, c.origin.vals = some v →
      channelLegal v.chip v.ch ∧ 0 < v.vref ∧ c.cmd = commandFrame v.chip v.ch.toNat) : c.Good where
  vals := hv
  decode := by simp [hp]
  scale := by simp [hp]
  exch := by simp [hp]

theorem Ctx.Good.toExch {c : Ctx} (h : c.Good) (link : Option Link) {live : Bool} (hl : live = true → c.usable = true) :
    Ctx.Good { c with phase := .exch link live } where
  vals := h.vals
  decode := by simp
  scale := by simp
  exch := by
    rintro _ _ ⟨⟩
    exact hl

theorem Ctx.Good.toDecode {c : Ctx} (h : c.Good) {rsp : List Byte} (hr : rsp.length = 3) (ho : c.origin ≠ .xfer)
    (hu : c.usable = true) : Ctx.Good { c with phase := .decode rsp } where
  vals := h.vals
  decode := by
    rintro _ ⟨⟩
    exact ⟨hr, ho, hu⟩
  scale := by simp
  exch := by simp

theorem Ctx.Good.toScale {c : Ctx} (h : c.Good) {rsp : List Byte} (hp : c.phase = .decode rsp) (code : Code) :
    Ctx.Good { c with phase := .scale code } where
  vals := h.vals
  decode := by simp
  scale := by
    rintro _ ⟨⟩
    obtain ⟨-, ho, hu⟩ := h.decode rsp hp
    exact ⟨ho, hu⟩
  exch := by simp

theorem State.SessionGood.keep {s s' : State} (h : s.SessionGood) (hs : s'.session = s.session)
    (hh : s'.handles = s.handles) : s'.SessionGood := by
  unfold State.SessionGood at h ⊢
  rwa [hs, hh]

/-- The registers of a slot that has them are legal. -/
theorem State.SessionGood.regs {s : State} (h : s.SessionGood) {r : Regs} (hr : s.session = .opened r ∨ s.session = .closed r) :
    0 < r.vref ∧ 0 < r.clockHz := by
  rcases hr with hr | hr <;> simp only [State.SessionGood, hr] at h
  · exact ⟨h.1, h.2.1⟩
  · exact h

/-- What another user does to a handle of its own leaves the session good. -/
theorem State.SessionGood.otherHandle {s s' : State} {h : Handle} (hg : s.SessionGood) (hs : s'.session = s.session)
    (ho : s.ownsHandle h = false) (hf : ∀ k, k ≠ h → findHandle k s'.handles = findHandle k s.handles) : s'.SessionGood := by
  unfold State.SessionGood at hg ⊢
  rw [hs]
  cases hr : s.session with
  | unconfigured => trivial
  | closed r => simpa [hr] using hg
  | opened r =>
    have hne : r.handle ≠ h := by simpa [State.ownsHandle, hr] using ho
    simpa [hr, hf _ hne] using hg

/-! ## Every update keeps the invariant -/

namespace State.Inv

variable {s : State}

theorem ticketsGood (hI : s.Inv) : s.TicketsGood := hI.tickets

theorem locksGood (hI : s.Inv) : s.LocksGood := hI.exclusive

theorem countP_ticket_le_one (hI : s.Inv) (t : Nat) : s.contexts.countP (fun d => decide (d.ticket = t)) ≤ 1 := by
  have := hI.ticketsGood.le_one t
  simp only [State.ticketCount] at this
  omega

/-- A ticket names at most one context. -/
theorem ctx_unique (hI : s.Inv) {c d : Ctx} (hc : c ∈ s.contexts) (hd : d ∈ s.contexts) (ht : d.ticket = c.ticket) :
    d = c :=
  Option.some.inj ((findCtx_of_mem hd ht (hI.countP_ticket_le_one _)).symm.trans
    (findCtx_of_mem hc rfl (hI.countP_ticket_le_one _)))

/-- A request in flight has a ticket that was given. -/
theorem ticket_lt (hI : s.Inv) {c : Ctx} (hc : c ∈ s.contexts) : c.ticket < s.nextTicket := by
  by_contra hge
  have hzero := (hI.tickets c.ticket).2 (Nat.le_of_not_lt hge)
  have hpos := countP_key_pos (key := Ctx.ticket) hc rfl
  simp only [State.ticketCount] at hzero
  omega

theorem withInbox (hI : s.Inv) (events : List Event) : (s.withInbox events).Inv := { hI with }

theorem traceExchange (hI : s.Inv) (link : Option Link) (a : Answer) : (s.traceExchange link a).Inv := { hI with }

theorem replyNow (hI : s.Inv) (r : Reply) : (s.replyNow r).Inv :=
  { hI with tickets := hI.ticketsGood.accept rfl (s.ticketCount_replyNow r) }

theorem startOpen (hI : s.Inv) {o : Opening} (ht : o.ticket = s.nextTicket) (hv : 0 < o.vref) (hz : 0 < o.clockHz) :
    (s.startOpen o).Inv :=
  { hI with
    tickets := hI.ticketsGood.accept rfl (State.ticketCount_startOpen ht)
    openings := by
      intro o' ho'
      rcases List.mem_append.1 ho' with ho' | ho'
      · exact hI.openings o' ho'
      · exact List.mem_singleton.1 ho' ▸ ⟨hv, hz⟩ }

theorem startClose (hI : s.Inv) {r : Regs} (hs : s.session = .opened r) (hc : s.closing = none) : (s.startClose r).Inv :=
  { hI with
    tickets := hI.ticketsGood.accept rfl (State.ticketCount_startClose hc r)
    closingOpen := fun _ => by simp [hs, Session.sstate] }

theorem opened (hI : s.Inv) {o : Opening} (h : Handle) (ho : o ∈ s.opening) : (s.opened o h).Inv :=
  { hI with
    tickets := hI.ticketsGood.keep rfl (State.ticketCount_answerOpening hI.ticketsGood ho rfl rfl rfl rfl)
    handlesSorted := putHandle_sorted h _ hI.handlesSorted
    openings := fun o' ho' => hI.openings o' (List.mem_filter.1 ho').1
    sessionGood := ⟨(hI.openings o ho).1, (hI.openings o ho).2, findHandle_putHandle_same h _ _⟩
    closingOpen := fun _ => rfl }

theorem openFailed (hI : s.Inv) {o : Opening} (ho : o ∈ s.opening) (r : Reply) :
    ((s.endOpening o.ticket).deliver o.ticket r).Inv :=
  { hI with
    tickets := hI.ticketsGood.keep rfl (State.ticketCount_answerOpening hI.ticketsGood ho rfl rfl rfl rfl)
    openings := fun o' ho' => hI.openings o' (List.mem_filter.1 ho').1 }

theorem endSession (hI : s.Inv) {t : Nat} {r : Regs} (a : Answer) (hs : s.session = .opened r) (hc : s.closing = some t) :
    (s.endSession t r a).Inv where
  tickets := hI.ticketsGood.keep (by simp) (State.ticketCount_endSession hc r a)
  exclusive := hI.locksGood.keep (by simp) (by simp [State.holders])
  busySorted := by simpa using hI.busySorted
  outsideSorted := by simpa using hI.outsideSorted
  handlesSorted := by simpa using releaseHandle_sorted r.handle hI.handlesSorted
  contexts := by simpa using hI.contexts
  openings := by simpa using hI.openings
  sessionGood := by simpa [State.SessionGood] using hI.sessionGood.regs (Or.inl hs)
  closingOpen := by simp

theorem openHandle (hI : s.Inv) {h : Handle} (l : Link) (ho : s.ownsHandle h = false) : (s.openHandle h l).Inv :=
  { hI with
    handlesSorted := putHandle_sorted h _ hI.handlesSorted
    sessionGood := hI.sessionGood.otherHandle rfl ho fun _ hk => findHandle_putHandle_other hk _ _ }

theorem releaseHandle (hI : s.Inv) {h : Handle} (ho : s.ownsHandle h = false) : (s.releaseHandle h).Inv where
  tickets := hI.ticketsGood.keep (by simp) (by simp [State.ticketCount])
  exclusive := hI.locksGood.keep (by simp) (by simp [State.holders])
  busySorted := by simpa using hI.busySorted
  outsideSorted := by simpa using hI.outsideSorted
  handlesSorted := releaseHandle_sorted h hI.handlesSorted
  contexts := by simpa using hI.contexts
  openings := by simpa using hI.openings
  sessionGood := hI.sessionGood.otherHandle (by simp) ho fun _ hk => findHandle_releaseHandle_other hk
  closingOpen := by simpa using hI.closingOpen

theorem outsideTake (hI : s.Inv) {l : Link} (hl : l ∉ s.busy) :
    State.Inv { s with busy := takeLink l s.busy, outside := takeLink l s.outside } :=
  { hI with
    exclusive := hI.locksGood.take (link := some l) (by simpa using hl) (fun k => by simp [eq_comm])
      (fun k => by simp [State.holders, count_takeLink, Nat.add_assoc])
    busySorted := takeLink_sorted hI.busySorted hl
    outsideSorted := takeLink_sorted hI.outsideSorted fun ho => by
      have hpos := List.count_pos_iff.2 ho
      have hzero := (hI.exclusive l).2 hl
      simp only [State.holders] at hzero
      omega }

theorem outsideFree (hI : s.Inv) {l : Link} (hl : l ∈ s.outside) :
    State.Inv { s with busy := s.busy.erase l, outside := s.outside.erase l } :=
  { hI with
    exclusive := hI.locksGood.free (link := some l) (fun k => by simp [mem_erase_sorted hI.busySorted, eq_comm])
      (fun k => by
        have hpos := List.count_pos_iff.2 hl
        simp only [State.holders, List.count_erase, Option.some.injEq, beq_iff_eq]
        split
        · next h => subst h; omega
        · omega)
    busySorted := erase_sorted l hI.busySorted
    outsideSorted := erase_sorted l hI.outsideSorted }

/-! ### Requests in flight -/

theorem enqueue (hI : s.Inv) {origin : Origin} {cmd : Frame} (h : Handle) (usable : Bool) (ha : Admissible s origin cmd) :
    (s.enqueue origin cmd h usable).Inv :=
  { hI with
    tickets := hI.ticketsGood.accept rfl (s.ticketCount_enqueue origin cmd h usable)
    exclusive := hI.locksGood.keep (fun _ => Iff.rfl) (fun k => by
      simp [State.holders, List.countP_append, Ctx.holds_eq, Phase.heldLink])
    contexts := by
      intro c hc
      rcases List.mem_append.1 hc with hc | hc
      · exact hI.contexts c hc
      · obtain rfl := List.mem_singleton.1 hc
        refine Ctx.Good.wait_of_vals rfl fun v hv => ?_
        obtain ⟨hlegal, hcmd⟩ := ha.built v hv
        refine ⟨hlegal, ?_, hcmd⟩
        cases origin with
        | xfer => cases hv
        | read w => exact ha.read v (congrArg Origin.read (Option.some.inj hv))
        | sread w =>
          obtain ⟨r, hr, hvref⟩ := ha.sread v (congrArg Origin.sread (Option.some.inj hv))
          exact hvref ▸ (hI.sessionGood.regs hr).1 }

/-- Acquire: the request takes its free link. -/
theorem callExchange (hI : s.Inv) {t : Nat} {c : Ctx} {link : Option Link} {live : Bool} (hf : s.findCtx t = some c)
    (hp : c.phase = .wait) (hfree : s.linkBusy link = false) (hl : live = true → c.usable = true) :
    (s.callExchange c link live).Inv where
  tickets := hI.ticketsGood.keep (by simp) (by simp [State.ticketCount])
  exclusive := by
    refine hI.locksGood.take hfree (by simp [State.mem_busy_lockLink]) fun k => ?_
    obtain ⟨hc, -⟩ := findCtx_some hf
    have hk := countP_holds_setPhase hc rfl (hI.countP_ticket_le_one _) (.exch link live) k
    rw [hp] at hk
    change _ + 0 = _ + (if link = some k then 1 else 0) at hk
    simp only [State.holders, State.callExchange_contexts, State.callExchange_outside]
    omega
  busySorted := by simpa using State.lockLink_busy_sorted hI.busySorted hfree
  outsideSorted := by simpa using hI.outsideSorted
  handlesSorted := by simpa using hI.handlesSorted
  contexts := by
    obtain ⟨hc, -⟩ := findCtx_some hf
    rw [State.callExchange_contexts]
    refine good_of_mem_setPhase hI.contexts fun d hd hdt => ?_
    obtain rfl := hI.ctx_unique hc hd hdt
    exact (hI.contexts d hd).toExch link hl
  openings := by simpa using hI.openings
  sessionGood := hI.sessionGood.keep (by simp) (by simp)
  closingOpen := by simpa using hI.closingOpen

/-- A request goes on to a phase in which it holds no lock, and releases the one that it holds. -/
theorem releaseAndMoveTo (hI : s.Inv) {t : Nat} {c : Ctx} {p : Phase} (hf : s.findCtx t = some c) (hp : p.heldLink = none)
    (hgood : Ctx.Good { c with phase := p }) : ((s.unlockLink c.phase.heldLink).moveTo t p).Inv where
  tickets := hI.ticketsGood.keep (by simp) (by simp [State.ticketCount])
  exclusive := by
    refine hI.locksGood.free (link := c.phase.heldLink) (fun k => State.mem_busy_unlockLink hI.busySorted) fun k => ?_
    obtain ⟨hc, ht⟩ := findCtx_some hf
    have hk := countP_holds_setPhase hc ht (hI.countP_ticket_le_one _) p k
    simp only [hp, reduceCtorEq, if_false, Nat.add_zero] at hk
    simp only [State.holders, State.moveTo_contexts, State.moveTo_outside, State.unlockLink_contexts,
      State.unlockLink_outside]
    omega
  busySorted := State.unlockLink_busy_sorted _ hI.busySorted
  outsideSorted := by simpa using hI.outsideSorted
  handlesSorted := by simpa using hI.handlesSorted
  contexts := by
    obtain ⟨hc, ht⟩ := findCtx_some hf
    rw [State.moveTo_contexts, State.unlockLink_contexts]
    refine good_of_mem_setPhase hI.contexts fun d hd hdt => ?_
    rwa [hI.ctx_unique hc hd (hdt.trans ht.symm)]
  openings := by simpa using hI.openings
  sessionGood := hI.sessionGood.keep (by simp) (by simp)
  closingOpen := by simpa using hI.closingOpen

/-- A request ends, and releases the lock that it holds. -/
theorem releaseAndFinish (hI : s.Inv) {t : Nat} {c : Ctx} (hf : s.findCtx t = some c) (r : Reply) :
    ((s.unlockLink c.phase.heldLink).finish t r).Inv where
  tickets := hI.ticketsGood.keep (by simp) fun u => by
    simpa [State.ticketCount] using State.ticketCount_finish hI.ticketsGood hf r u
  exclusive := by
    refine hI.locksGood.free (link := c.phase.heldLink) (fun k => State.mem_busy_unlockLink hI.busySorted) fun k => ?_
    obtain ⟨hc, ht⟩ := findCtx_some hf
    have hk := countP_holds_dropCtx hc ht (hI.countP_ticket_le_one _) k
    simp only [State.holders, State.finish_contexts, State.finish_outside, State.unlockLink_contexts,
      State.unlockLink_outside]
    omega
  busySorted := State.unlockLink_busy_sorted _ hI.busySorted
  outsideSorted := by simpa using hI.outsideSorted
  handlesSorted := by simpa using hI.handlesSorted
  contexts := by
    intro d hd
    rw [State.finish_contexts, State.unlockLink_contexts] at hd
    exact hI.contexts d (mem_dropCtx.1 hd).1
  openings := by simpa using hI.openings
  sessionGood := hI.sessionGood.keep (by simp) (by simp)
  closingOpen := by simpa using hI.closingOpen

/-- A request past its exchange ends; it holds no lock. -/
theorem finish (hI : s.Inv) {t : Nat} {c : Ctx} (hf : s.findCtx t = some c) (hp : c.phase.heldLink = none) (r : Reply) :
    (s.finish t r).Inv := by
  have h := hI.releaseAndFinish hf r
  rwa [hp] at h

theorem advance (hI : s.Inv) (t : Nat) : (s.advance t).Inv := by
  rcases advance_cases s t with h | ⟨c, hf, hp, hfree, h⟩ | ⟨c, rsp, code, hf, hp, -, h⟩ | ⟨c, rsp, f, hf, hp, -, h⟩ |
      ⟨c, code, v, hf, hp, -, h⟩ <;> rw [h]
  · exact hI
  · exact hI.callExchange hf hp hfree fun hl => (Bool.and_eq_true_iff.1 hl).1
  · have hgood := (hI.contexts c (findCtx_some hf).1).toScale hp code
    have hm := hI.releaseAndMoveTo hf rfl hgood
    rwa [hp] at hm
  · exact hI.finish hf (by rw [hp]; rfl) _
  · exact hI.finish hf (by rw [hp]; rfl) _

theorem exchangeAnswered (hI : s.Inv) (t : Nat) (a : Answer) : (s.exchangeAnswered t a).Inv := by
  rcases exchangeAnswered_cases s t a with h | ⟨c, link, live, heard, hf, hp, hh, hcases⟩
  · rwa [h]
  have hlink : link = c.phase.heldLink := by rw [hp]; rfl
  have hI' := hI.traceExchange link heard
  rcases hcases with ⟨cause, -, h⟩ | ⟨bs, -, -, h⟩ | ⟨bs, hok, ho, h⟩ <;>
    rw [h, State.traceExchange_unlockLink]
  · rw [hlink] at hI' ⊢; exact hI'.releaseAndFinish hf _
  · rw [hlink] at hI' ⊢; exact hI'.releaseAndFinish hf _
  · have hgood := hI.contexts c (findCtx_some hf).1
    have hlive : live = true := by
      rcases exchangeHears_some hh with rfl | ⟨hlive, -⟩
      · cases hok
      · exact hlive
    rw [hlink] at hI' ⊢
    exact hI'.releaseAndMoveTo hf rfl (hgood.toDecode (acceptAnswer_ok hok) ho (hgood.exch link live hp hlive))

end State.Inv

/-- R38, R240, R226: every update that a step is made of keeps the invariant. -/
theorem inv_keptByUpdates : KeptByUpdates State.Inv where
  consume _ _ rest _ hI := hI.withInbox rest
  replyNow _ r hI := hI.replyNow r
  enqueue _ _ _ h usable ha hI := hI.enqueue h usable ha
  advance _ t hI := hI.advance t
  exchangeAnswered _ t a rest _ hI := (hI.withInbox rest).exchangeAnswered t a
  startOpen _ _ ht hv hz hI := hI.startOpen ht hv hz
  opened _ _ h ho _ _ hI := hI.opened h ho
  openFailed _ _ ho hI := hI.openFailed ho _
  startClose _ _ hs hc _ hI := hI.startClose hs hc
  endSession _ _ _ a hs hc _ hI := hI.endSession a hs hc
  outsideOpen _ _ l ho hI := hI.openHandle l ho
  outsideClose _ _ ho hI := hI.releaseHandle ho
  outsideTake _ _ hl hI := hI.outsideTake hl
  outsideFree _ _ hl hI := hI.outsideFree hl

/-- Settles O42: the invariant is kept by each update, and a step is a chain of updates. -/
theorem everyStepKeepsTheInvariant : Obligations.EveryStepKeepsTheInvariant := by
  intro s s' hI h
  exact inv_keptByUpdates.step hI h

/-! ## What no request touches -/

/-- `s'` has the slot, the handle table, the session operations in flight and the outside links of `s`. -/
def State.SameSlot (s s' : State) : Prop :=
  s'.handles = s.handles ∧ s'.session = s.session ∧ s'.opening = s.opening ∧ s'.closing = s.closing ∧ s'.outside = s.outside

namespace State.SameSlot

theorem refl (s : State) : s.SameSlot s := ⟨rfl, rfl, rfl, rfl, rfl⟩

theorem trans {s t u : State} (h : s.SameSlot t) (h' : t.SameSlot u) : s.SameSlot u := by
  obtain ⟨h1, h2, h3, h4, h5⟩ := h
  obtain ⟨h1', h2', h3', h4', h5'⟩ := h'
  exact ⟨h1'.trans h1, h2'.trans h2, h3'.trans h3, h4'.trans h4, h5'.trans h5⟩

theorem session_eq {s s' : State} (h : s.SameSlot s') : s'.session = s.session := h.2.1

theorem withInbox (s : State) (events : List Event) : s.SameSlot (s.withInbox events) := ⟨rfl, rfl, rfl, rfl, rfl⟩

theorem replyNow (s : State) (r : Reply) : s.SameSlot (s.replyNow r) := ⟨rfl, rfl, rfl, rfl, rfl⟩

theorem advance (s : State) (t : Nat) : s.SameSlot (s.advance t) := by
  rcases advance_cases s t with h | ⟨c, -, -, -, h⟩ | ⟨c, rsp, code, -, -, -, h⟩ | ⟨c, rsp, f, -, -, -, h⟩ |
      ⟨c, code, v, -, -, -, h⟩ <;>
    simp [h, State.SameSlot]

theorem exchangeAnswered (s : State) (t : Nat) (a : Answer) : s.SameSlot (s.exchangeAnswered t a) := by
  rcases exchangeAnswered_cases s t a with h |
      ⟨c, link, live, heard, -, -, -, ⟨cause, -, h⟩ | ⟨bs, -, -, h⟩ | ⟨bs, -, -, h⟩⟩ <;>
    simp [h, State.SameSlot]

theorem runIfAnswered (s : State) (t : Nat) : s.SameSlot (s.runIfAnswered t) := by
  rcases runIfAnswered_cases s t with h | ⟨a, rest, -, h⟩ <;> rw [h]
  · exact refl s
  · exact (((withInbox s rest).trans (advance _ t)).trans (exchangeAnswered _ t a)).trans
      ((advance _ t).trans (advance _ t))

theorem startExchange (s : State) (origin : Origin) (cmd : Frame) (h : Handle) (usable : Bool) :
    s.SameSlot (s.startExchange origin cmd h usable) :=
  trans (t := s.enqueue origin cmd h usable) ⟨rfl, rfl, rfl, rfl, rfl⟩ (runIfAnswered _ _)

theorem startRead (s : State) (origin : Origin) (v : ReadVals) (h : Handle) (usable : Bool) :
    s.SameSlot (s.startRead origin v h usable) := by
  unfold State.startRead
  cases encodeUnit v.chip v.ch with
  | error f => exact replyNow s _
  | ok cmd => exact startExchange s origin cmd h usable

theorem encodeRequest (s : State) (chip : ChipModel) (ch : Int) : s.SameSlot (s.encodeRequest chip ch) := by
  unfold State.encodeRequest
  cases encodeUnit chip ch <;> exact replyNow s _

theorem decodeRequest (s : State) (rsp : List Byte) : s.SameSlot (s.decodeRequest rsp) := by
  unfold State.decodeRequest
  cases decodeUnit rsp <;> exact replyNow s _

end State.SameSlot

theorem execSread_sameSlot {ch : Option Int} {s s' : State} (h : execSread ch s = .next s') : s.SameSlot s' := by
  unfold execSread at h
  cases hs : s.session with
  | unconfigured => simp [hs] at h
  | opened r =>
    simp only [hs, Host.Outcome.next.injEq] at h
    exact h ▸ State.SameSlot.startRead _ _ _ _ _
  | closed r =>
    simp only [hs, Host.Outcome.next.injEq] at h
    exact h ▸ State.SameSlot.startRead _ _ _ _ _

theorem execRead_sameSlot {chip : ChipModel} {ch : Int} {vref : NumT} {hd : Handle} {s s' : State}
    (h : execRead chip ch vref hd s = .next s') : s.SameSlot s' := by
  unfold execRead at h
  by_cases hv : vref ≤ 0
  · simp [hv] at h
  · simp only [hv, if_false, Host.Outcome.next.injEq] at h
    exact h ▸ State.SameSlot.startRead _ _ _ _ _

theorem execScale_sameSlot {code : Code} {vref : NumT} {s s' : State} (h : execScale code vref s = .next s') :
    s.SameSlot s' := by
  unfold execScale at h
  by_cases hv : vref ≤ 0
  · simp [hv] at h
  · simp only [hv, if_false, Host.Outcome.next.injEq] at h
    exact h ▸ State.SameSlot.replyNow _ _

theorem exec_sameSlot {i : Instr} {s s' : State} (h : exec i s = .next s')
    (hconf : ∀ chip chDefault clockHz vref mode, i ≠ .configure chip chDefault clockHz vref mode) (hclose : i ≠ .close) :
    s.SameSlot s' := by
  cases i with
  | configure => exact absurd rfl (hconf _ _ _ _ _)
  | close => exact absurd rfl hclose
  | sread => exact execSread_sameSlot h
  | read => exact execRead_sameSlot h
  | scale => exact execScale_sameSlot h
  | xfer => exact Host.Outcome.next.inj h ▸ State.SameSlot.startExchange _ _ _ _ _
  | decode | rsp24 => exact Host.Outcome.next.inj h ▸ State.SameSlot.decodeRequest _ _
  | encode | cmd24Mcp3002 | cmd24Mcp3004 | cmd24Mcp3008 | cmd24Mcp3002Ch0 | cmd24Mcp3002Ch1 | cmd24Mcp3004Ch0
  | cmd24Mcp3004Ch1 | cmd24Mcp3004Ch2 | cmd24Mcp3004Ch3 | cmd24Mcp3008Ch0 | cmd24Mcp3008Ch1 | cmd24Mcp3008Ch2
  | cmd24Mcp3008Ch3 | cmd24Mcp3008Ch4 | cmd24Mcp3008Ch5 | cmd24Mcp3008Ch6 | cmd24Mcp3008Ch7 =>
    exact Host.Outcome.next.inj h ▸ State.SameSlot.encodeRequest _ _ _

/-- Settles O56: the other instructions are chains of updates that leave the slot, the table and the rest alone. -/
theorem onlyConfigureAndCloseTouchTheSlotAndTheHandles :
    Obligations.OnlyConfigureAndCloseTouchTheSlotAndTheHandles := by
  intro i s s' h hconf hclose
  exact exec_sameSlot h hconf hclose

/-! ## The slot of an OPEN session -/

/-- An answer to Close ends the OPEN session, or is no answer to it. -/
theorem closeAnswered_cases {s s' : State} {t : Nat} {a : Answer} {r : Regs} (hs : s.session = .opened r)
    (h : s.closeAnswered t a = .next s') : s' = s ∨ s' = s.endSession t r a := by
  simp only [State.closeAnswered, hs] at h
  cases a with
  | bytes _ | handle _ => exact Or.inl (Host.Outcome.next.inj h).symm
  | done | failed =>
    cases hf : s.sreadInFlight with
    | true => simp [hf] at h
    | false =>
      simp only [hf, Bool.false_eq_true, if_false, Host.Outcome.next.injEq] at h
      exact Or.inr h.symm

theorem closeAnswered_session {s s' : State} {t : Nat} {a : Answer} {r : Regs} (hs : s.session = .opened r)
    (h : s.closeAnswered t a = .next s') : s'.session = .opened r ∨ s'.session = .closed r := by
  rcases closeAnswered_cases hs h with rfl | rfl
  · exact Or.inl hs
  · exact Or.inr (by simp)

/-- An answer to Open that would overwrite an OPEN session is refused. -/
theorem openAnswered_session {s s' : State} {o : Opening} {a : Answer} {r : Regs} (hs : s.session = .opened r)
    (h : s.openAnswered o a = .next s') : s'.session = .opened r := by
  cases a with
  | handle hd => simp [State.openAnswered, hs, Session.sstate] at h
  | failed | bytes _ | done => exact Host.Outcome.next.inj h ▸ hs

theorem execConfigure_ne_next {s s' : State} {chip : BitVec 2} {chDefault clockHz : Int} {vref : Option NumT}
    {mode : SpiMode} {r : Regs} (hs : s.session = .opened r) :
    execConfigure chip chDefault clockHz vref mode s ≠ .next s' := by
  simp [execConfigure, hs, Session.sstate]

theorem execClose_session {s s' : State} {r : Regs} (hs : s.session = .opened r) (h : execClose s = .next s') :
    s'.session = .opened r ∨ s'.session = .closed r := by
  simp only [execClose, hs] at h
  by_cases hf : s.sreadInFlight = true
  · simp [hf] at h
  by_cases hc : s.closing.isSome = true
  · simp [hf, hc] at h
  simp only [hf, hc, Bool.false_eq_true, if_false, State.closeIfAnswered] at h
  split at h
  · split at h
    · exact closeAnswered_session (by exact hs) h
    · exact Or.inl (Host.Outcome.next.inj h ▸ hs)
  · exact Or.inl (Host.Outcome.next.inj h ▸ hs)

theorem exec_session {i : Instr} {s s' : State} {r : Regs} (hs : s.session = .opened r) (h : exec i s = .next s') :
    s'.session = .opened r ∨ s'.session = .closed r := by
  by_cases hclose : i = .close
  · subst hclose
    exact execClose_session hs h
  · refine Or.inl ((exec_sameSlot h ?_ hclose).session_eq.trans hs)
    rintro chip chDefault clockHz vref mode rfl
    exact execConfigure_ne_next hs h

theorem answerMove_session {s s' : State} {t : Nat} {a : Answer} {r : Regs} (hs : s.session = .opened r)
    (h : answerMove t a s = .next s') : s'.session = .opened r ∨ s'.session = .closed r := by
  unfold answerMove at h
  split at h
  · exact closeAnswered_session hs h
  · split at h
    · exact Or.inl (openAnswered_session hs h)
    · exact Or.inl (Host.Outcome.next.inj h ▸ (State.SameSlot.exchangeAnswered s t a).session_eq.trans hs)

/-- Another user of the transport never touches the slot. -/
theorem perform_session {m : Move} {s s' : State} {r : Regs} (hs : s.session = .opened r) (h : perform m s = .next s') :
    s'.session = .opened r ∨ s'.session = .closed r := by
  cases m with
  | advance t => exact Or.inl (Host.Outcome.next.inj h ▸ (State.SameSlot.advance s t).session_eq.trans hs)
  | answer t a => exact answerMove_session hs h
  | outsideOpen hd l =>
    simp only [perform, outsideOpenMove] at h
    split at h <;> exact Or.inl (Host.Outcome.next.inj h ▸ hs)
  | outsideClose hd =>
    simp only [perform, outsideCloseMove] at h
    split at h <;> cases h
    · exact Or.inl hs
    · exact Or.inl (by simp [hs])
  | outsideTake l =>
    simp only [perform, outsideTakeMove] at h
    split at h <;> exact Or.inl (Host.Outcome.next.inj h ▸ hs)
  | outsideFree l =>
    simp only [perform, outsideFreeMove] at h
    split at h <;> exact Or.inl (Host.Outcome.next.inj h ▸ hs)

/-- Settles O45: CONFIGURE is refused, an Open answered with a handle too, and only CLOSE writes the slot, keeping the
registers. -/
theorem openSessionIsImmutable : Obligations.OpenSessionIsImmutable := by
  intro s s' r hs h
  unfold step at h
  split at h
  · exact Or.inl (Host.Outcome.next.inj h ▸ hs)
  · unfold issue at h
    split at h
    · exact exec_session (by exact hs) h
    · cases h
  · exact perform_session (by exact hs) h

/-! ## Reached states -/

theorem inv_reset (events : List Event) : State.Inv { State.reset with inbox := events } where
  tickets t := ⟨fun h => absurd h (Nat.not_lt_zero t), fun _ => rfl⟩
  exclusive _ := ⟨fun h => absurd h List.not_mem_nil, fun _ => rfl⟩
  busySorted := List.Pairwise.nil
  outsideSorted := List.Pairwise.nil
  handlesSorted := List.Pairwise.nil
  contexts _ h := absurd h List.not_mem_nil
  openings _ h := absurd h List.not_mem_nil
  sessionGood := trivial
  closingOpen h := absurd rfl h

theorem Reached.inv {events : List Event} {s : State} (h : Reached events s) : s.Inv := by
  obtain ⟨k, hk⟩ := h
  exact inv_keptByUpdates.run (inv_reset events) hk

/-- Every legal channel has its row in the table of R89, with the Command that ENCODE computes. -/
theorem commandFrame_mem_cmdRows (chip : ChipModel) :
    ∀ n ≤ maxChannel chip, ∃ row ∈ cmdRows, row.chip = chip ∧ row.channel = n ∧ row.word = (commandFrame chip n).word := by
  cases chip <;> decide

theorem exists_cmdRow {chip : ChipModel} {ch : Int} (h : channelLegal chip ch) :
    ∃ row ∈ cmdRows, row.chip = chip ∧ (row.channel : Int) = ch ∧ row.word = (commandFrame chip ch.toNat).word := by
  obtain ⟨hpos, hmax⟩ := h
  obtain ⟨row, hmem, hchip, hch, hword⟩ := commandFrame_mem_cmdRows chip ch.toNat (by omega)
  exact ⟨row, hmem, hchip, by omega, hword⟩

/-- A reading lies from 0 up to below its reference voltage: the code is below the divisor (43_voltage_scaler.md R164). -/
theorem scaleUnit_range (code : Code) {vref : NumT} (hv : 0 < vref) :
    0 ≤ scaleUnit code vref ∧ scaleUnit code vref < vref := by
  have hcode : (code.toNat : NumT) < 1024 := by exact_mod_cast code.isLt
  have hdiv : (0 : NumT) < divisor := by norm_num [divisor]
  refine ⟨div_nonneg (mul_nonneg (Nat.cast_nonneg _) hv.le) hdiv.le, (div_lt_iff₀ hdiv).2 ?_⟩
  rw [mul_comm vref]
  exact mul_lt_mul_of_pos_right hcode hv

/-- Settles O44: the invariant holds in every reached state, and says it of each context but for the table of frames and the
range of the reading. -/
theorem reachedContextsAreGood : Obligations.ReachedContextsAreGood := by
  intro events s hreach
  have hI := hreach.inv
  refine ⟨fun r hr => hI.sessionGood.regs hr, fun c hc v hv => ?_⟩
  have hgood := hI.contexts c hc
  obtain ⟨hlegal, hvref, hcmd⟩ := hgood.vals v hv
  rw [hcmd]
  exact ⟨rfl, rfl, exists_cmdRow hlegal, fun rsp hp => (hgood.decode rsp hp).1, fun code _ => scaleUnit_range code hvref⟩

/-! ## The order of the phases -/

/-- `c` is in flight no more, or is as it was but for its phase, which is the same or a later one (10_state.md R31). -/
structure State.Continues (c : Ctx) (s : State) : Prop where
  ticket_lt : c.ticket < s.nextTicket
  later : ∀ c' ∈ s.contexts, c'.ticket = c.ticket →
    c' = { c with phase := c'.phase } ∧ (c'.phase = c.phase ∨ c.phase.rank < c'.phase.rank)

namespace State.Continues

variable {c : Ctx} {s : State}

theorem keep (h : s.Continues c) {s' : State} (hn : s.nextTicket ≤ s'.nextTicket)
    (hc : ∀ c' ∈ s'.contexts, c'.ticket = c.ticket → c' ∈ s.contexts) : s'.Continues c :=
  ⟨h.ticket_lt.trans_le hn, fun c' hc' ht => h.later c' (hc c' hc' ht) ht⟩

theorem withInbox (h : s.Continues c) (events : List Event) : (s.withInbox events).Continues c :=
  h.keep le_rfl fun _ hc _ => hc

/-- A request goes on to a later phase. -/
theorem moveOn (h : s.Continues c) (hI : s.Inv) {s' : State} {t : Nat} {d : Ctx} {p : Phase} (hf : s.findCtx t = some d)
    (hp : d.phase.rank < p.rank) (hn : s'.nextTicket = s.nextTicket) (hc : s'.contexts = setPhase t p s.contexts) :
    s'.Continues c := by
  refine ⟨hn ▸ h.ticket_lt, fun c' hc' ht => ?_⟩
  rw [hc] at hc'
  obtain ⟨hd, hdt⟩ := findCtx_some hf
  obtain ⟨e, he, ⟨het, rfl⟩ | ⟨-, rfl⟩⟩ := mem_setPhase hc'
  · obtain rfl := hI.ctx_unique hd he (het.trans hdt.symm)
    obtain ⟨heq, hle⟩ := h.later e he ht
    refine ⟨by rw [heq], Or.inr ?_⟩
    rcases hle with hle | hle
    · exact hle ▸ hp
    · exact hle.trans hp
  · exact h.later c' he ht

theorem finish (h : s.Continues c) {s' : State} {t : Nat} (hn : s'.nextTicket = s.nextTicket)
    (hc : s'.contexts = dropCtx t s.contexts) : s'.Continues c :=
  h.keep hn.ge fun _ hc' _ => (mem_dropCtx.1 (hc ▸ hc')).1

theorem enqueue (h : s.Continues c) (origin : Origin) (cmd : Frame) (hd : Handle) (usable : Bool) :
    (s.enqueue origin cmd hd usable).Continues c := by
  refine h.keep (Nat.le_succ _) fun c' hc' ht => ?_
  rcases List.mem_append.1 hc' with hc' | hc'
  · exact hc'
  · rw [List.mem_singleton.1 hc'] at ht
    exact absurd ht (Nat.ne_of_gt h.ticket_lt)

theorem advance (h : s.Continues c) (hI : s.Inv) (t : Nat) : (s.advance t).Continues c := by
  rcases advance_cases s t with he | ⟨d, hf, hp, -, he⟩ | ⟨d, rsp, code, hf, hp, -, he⟩ | ⟨d, rsp, f, -, -, -, he⟩ |
      ⟨d, code, v, -, -, -, he⟩ <;> rw [he]
  · exact h
  · exact h.moveOn hI hf (p := .exch (s.linkOf d.handle) (d.usable && s.isOpen d.handle)) (by simp [hp, Phase.rank])
      (by simp) (by simp [(findCtx_some hf).2])
  · exact h.moveOn hI hf (p := .scale code) (by simp [hp, Phase.rank]) rfl rfl
  · exact h.finish rfl rfl
  · exact h.finish rfl rfl

theorem exchangeAnswered (h : s.Continues c) (hI : s.Inv) (t : Nat) (a : Answer) :
    (s.exchangeAnswered t a).Continues c := by
  rcases exchangeAnswered_cases s t a with he |
      ⟨d, link, live, heard, hf, hp, -, ⟨cause, -, he⟩ | ⟨bs, -, -, he⟩ | ⟨bs, -, -, he⟩⟩ <;> rw [he]
  · exact h
  · exact h.finish (t := t) (by simp) (by simp)
  · exact h.finish (t := t) (by simp) (by simp)
  · exact h.moveOn hI hf (p := .decode bs) (by simp [hp, Phase.rank]) (by simp) (by simp)

end State.Continues

/-- The invariant is needed beside it: a ticket names one context. -/
theorem continues_keptByUpdates (c : Ctx) : KeptByUpdates fun s => s.Inv ∧ s.Continues c where
  consume _ _ rest _ h := ⟨h.1.withInbox rest, h.2.withInbox rest⟩
  replyNow _ r h := ⟨h.1.replyNow r, h.2.keep (Nat.le_succ _) fun _ hc _ => hc⟩
  enqueue _ origin cmd hd usable ha h := ⟨h.1.enqueue hd usable ha, h.2.enqueue origin cmd hd usable⟩
  advance _ t h := ⟨h.1.advance t, h.2.advance h.1 t⟩
  exchangeAnswered _ t a rest _ h :=
    have hI := h.1.withInbox rest
    ⟨hI.exchangeAnswered t a, (h.2.withInbox rest).exchangeAnswered hI t a⟩
  startOpen _ _ ht hv hz h := ⟨h.1.startOpen ht hv hz, h.2.keep (Nat.le_succ _) fun _ hc _ => hc⟩
  opened _ _ hd ho _ _ h := ⟨h.1.opened hd ho, h.2.keep le_rfl fun _ hc _ => hc⟩
  openFailed _ _ ho h := ⟨h.1.openFailed ho _, h.2.keep le_rfl fun _ hc _ => hc⟩
  startClose _ _ hs hc _ h := ⟨h.1.startClose hs hc, h.2.keep (Nat.le_succ _) fun _ hc _ => hc⟩
  endSession _ _ _ a hs hc _ h :=
    ⟨h.1.endSession a hs hc, h.2.keep (by simp) fun _ hc' _ => by simpa using hc'⟩
  outsideOpen _ _ l ho h := ⟨h.1.openHandle l ho, h.2.keep le_rfl fun _ hc _ => hc⟩
  outsideClose _ _ ho h := ⟨h.1.releaseHandle ho, h.2.keep (by simp) fun _ hc _ => by simpa using hc⟩
  outsideTake _ _ hl h := ⟨h.1.outsideTake hl, h.2.keep le_rfl fun _ hc _ => hc⟩
  outsideFree _ _ hl h := ⟨h.1.outsideFree hl, h.2.keep le_rfl fun _ hc _ => hc⟩

/-- Settles O50: a chain of updates only moves a request on or ends it. -/
theorem phasesNeverGoBackwards : Obligations.PhasesNeverGoBackwards := by
  intro s s' c c' hI h hc hc' ht
  have hstart : s.Continues c :=
    ⟨hI.ticket_lt hc, fun d hd hdt => by
      obtain rfl := hI.ctx_unique hc hd hdt
      exact ⟨rfl, Or.inl rfl⟩⟩
  obtain ⟨-, hcont⟩ := (continues_keptByUpdates c).step ⟨hI, hstart⟩ h
  exact hcont.later c' hc' ht

end Sys2Proof.Machine
end

section
/-! # Memory: the link, its lock and the exchange (20_memory.md)

Support: what a request does that waits, that acquires its link, and that hears the answer to its exchange, each as the next
state; then the statements of this family. -/

namespace Sys2Proof.Machine

/-! ## The issue of a request for an exchange -/

theorem runIfAnswered_of_answer {s : State} {t : Nat} {a : Answer} {rest : List Event}
    (hi : s.inbox = .move (.answer t a) :: rest) :
    s.runIfAnswered t
      = State.advance t (State.advance t (State.exchangeAnswered t a (State.advance t (s.withInbox rest)))) := by
  simp [State.runIfAnswered, hi, State.withInbox]

theorem startRead_legal {v : ReadVals} (hv : channelLegal v.chip v.ch) (origin : Origin) (h : Handle) (usable : Bool)
    (s : State) :
    s.startRead origin v h usable = s.startExchange origin (commandFrame v.chip v.ch.toNat) h usable := by
  simp [State.startRead, encodeUnit_legal hv]

theorem exec_read_legal {chip : ChipModel} {ch : Int} {vref : NumT} (hch : channelLegal chip ch) (hv : 0 < vref) (h : Handle)
    (s : State) :
    exec (.read chip ch vref h) s
      = .next (s.startExchange (.read ⟨ch, chip, vref⟩) (commandFrame chip ch.toNat) h true) := by
  have hexec : exec (.read chip ch vref h) s = .next (s.startRead (.read ⟨ch, chip, vref⟩) ⟨ch, chip, vref⟩ h true) :=
    if_neg (not_le.2 hv)
  rw [hexec, startRead_legal hch]

theorem exec_sread_opened {r : Regs} {s : State} (hs : s.session = .opened r) {ch : Option Int}
    (hch : channelLegal r.chip (ch.getD r.chDefault)) :
    exec (.sread ch) s = .next (s.startExchange (.sread ⟨ch.getD r.chDefault, r.chip, r.vref⟩)
      (commandFrame r.chip (ch.getD r.chDefault).toNat) r.handle true) := by
  simp only [exec, execSread, hs, sreadChannel]
  rw [startRead_legal hch]

theorem exec_sread_closed {r : Regs} {s : State} (hs : s.session = .closed r) {ch : Option Int}
    (hch : channelLegal r.chip (ch.getD r.chDefault)) :
    exec (.sread ch) s = .next (s.startExchange (.sread ⟨ch.getD r.chDefault, r.chip, r.vref⟩)
      (commandFrame r.chip (ch.getD r.chDefault).toNat) r.handle false) := by
  simp only [exec, execSread, hs, sreadChannel]
  rw [startRead_legal hch]

/-! ## A request that waits -/

/-- The next request on handle `h`, issued in `s`, does not get past WAIT: no answer to it is the next event, or there is one
while the link of `h` is busy. `s'` is `s` with that answer, if any, used up. -/
def State.NextWaits (s : State) (h : Handle) (s' : State) : Prop :=
  ((∀ a rest, s.inbox ≠ .move (.answer s.nextTicket a) :: rest) ∧ s' = s) ∨
    (s.Fresh ∧ ∃ l a rest, s.linkOf h = some l ∧ l ∈ s.busy ∧ s.inbox = .move (.answer s.nextTicket a) :: rest ∧
      s' = { s with inbox := rest })

/-- The steps of a request whose link is busy do nothing, so an answer to it is used up without effect. -/
theorem runIfAnswered_blocked {s : State} {t : Nat} {c : Ctx} {a : Answer} {rest : List Event}
    (hi : s.inbox = .move (.answer t a) :: rest) (hf : s.findCtx t = some c) (hp : c.phase = .wait)
    (hb : s.linkBusy (s.linkOf c.handle) = true) : s.runIfAnswered t = s.withInbox rest := by
  obtain ⟨hadv, hans⟩ := blocked (s := s.withInbox rest) hf hp hb
  rw [runIfAnswered_of_answer hi, hadv, hans, hadv, hadv]

theorem startExchange_waits {s s' : State} {h : Handle} (hw : s.NextWaits h s') (origin : Origin) (cmd : Frame)
    (usable : Bool) : s.startExchange origin cmd h usable = s'.waiting origin cmd h usable := by
  rcases hw with ⟨hno, rfl⟩ | ⟨hfresh, l, a, rest, hl, hbusy, hi, rfl⟩
  · exact runIfAnswered_waits (s := s'.enqueue origin cmd h usable) hno
  · have hfind : (s.enqueue origin cmd h usable).findCtx s.nextTicket
        = some ⟨s.nextTicket, origin, cmd, h, usable, .wait⟩ :=
      findCtx_last (s.enqueue_contexts origin cmd h usable) (noTicket_of_fresh hfresh) rfl
    have hblocked : s.linkBusy (s.linkOf h) = true := by simpa [hl] using hbusy
    exact runIfAnswered_blocked (s := s.enqueue origin cmd h usable) hi hfind rfl hblocked

/-- Settles O17: the context is admitted in WAIT, and on a busy link none of its steps does anything. -/
theorem blockedRequestSendsNothing : Obligations.BlockedRequestSendsNothing := by
  refine ⟨fun cmd h s s' hw => ?_, fun s t c l hf hp hl hbusy => ?_⟩
  · have hstart := startExchange_waits (s := s) (s' := s') (h := h) hw
    refine ⟨congrArg _ (hstart _ _ _), fun chip ch vref hch hv => ?_, ?_⟩
    · rw [exec_read_legal hch hv, hstart]
    · rintro ch r rfl hch
      exact ⟨fun hs => by rw [exec_sread_opened hs hch, hstart], fun hs => by rw [exec_sread_closed hs hch, hstart]⟩
  · have hblocked : s.linkBusy (s.linkOf c.handle) = true := by simpa [hl] using hbusy
    exact congrArg _ (blocked hf hp hblocked).1

/-! ## A request that acquires its link -/

/-- The Acquire step of a request whose link is free, or that has none. -/
theorem advance_acquires {s : State} {t : Nat} {c : Ctx} (hf : s.findCtx t = some c) (hp : c.phase = .wait)
    (hfree : s.linkBusy (s.linkOf c.handle) = false) :
    s.advance t = s.callExchange c (s.linkOf c.handle) (c.usable && s.isOpen c.handle) := by
  simp [State.advance, State.acquire, hf, hp, hfree]

theorem sentFrames_some (l : Link) (live : Bool) (cmd : Frame) :
    sentFrames (some l) live cmd = if live then [(l, cmd)] else [] := by
  cases live <;> rfl

/-- Settles O18: Acquire of a free link is the call of Exchange, which takes that link alone. -/
theorem anyWaitingRequestMayAcquireAFreeLink : Obligations.AnyWaitingRequestMayAcquireAFreeLink := by
  intro s t c hf hp
  obtain ⟨-, rfl⟩ := findCtx_some hf
  refine ⟨fun l isOpen hh hfree => ⟨takeLink l s.busy, ?_, fun k => mem_takeLink⟩, fun hh => ?_⟩
  · have hlink : s.linkOf c.handle = some l := linkOf_of_find hh
    have hopen : s.isOpen c.handle = isOpen := isOpen_of_find hh
    have hadv := advance_acquires hf hp (by simpa [hlink] using hfree)
    rw [hlink, hopen] at hadv
    simp only [perform, hadv, State.callExchange, sentFrames_some]
    rfl
  · have hlink : s.linkOf c.handle = none := by simp [State.linkOf, hh]
    have hopen : s.isOpen c.handle = false := by simp [State.isOpen, hh]
    have hadv := advance_acquires hf hp (by simp [hlink])
    rw [hlink, hopen, Bool.and_false] at hadv
    simp only [perform, hadv, State.callExchange, sentFrames, List.append_nil]
    rfl

/-! ## A request whose exchange is answered -/

/-- An exchange hears its answer, or Failed on a handle that was not open (41_transaction_executor.md R135). -/
theorem exchangeHears_ofExchange {a : Answer} (ha : a.ofExchange) (live : Bool) :
    exchangeHears live a = some (if live then a else .failed) := by
  rcases ha with rfl | ⟨bs, rfl⟩ <;> cases live <;> rfl

theorem acceptAnswer_of_length {bs : List Byte} (h : bs.length = 3) : acceptAnswer (.bytes bs) = .ok bs := if_pos h

/-- What is accepted is the bytes of the answer, unchanged. -/
theorem eq_bytes_of_acceptAnswer_ok {a : Answer} {bs : List Byte} (h : acceptAnswer a = .ok bs) : a = .bytes bs := by
  cases a with
  | bytes s =>
    by_cases hs : s.length = 3
    · rw [acceptAnswer_of_length hs] at h
      exact congrArg _ (Except.ok.inj h)
    · rw [acceptAnswer_other hs] at h
      cases h
  | handle _ | done | failed => cases h

theorem xferReply_of_ok {a : Answer} {bs : List Byte} (h : acceptAnswer a = .ok bs) :
    xferReply a = .ok (.response bs) := by
  obtain ⟨x, b1, b2, rfl⟩ := eq_three_of_length (acceptAnswer_ok h)
  rw [eq_bytes_of_acceptAnswer_ok h]
  rfl

theorem xferReply_of_error {a : Answer} {f : Failure} (h : acceptAnswer a = .error f) : xferReply a = .fail f := by
  cases a with
  | bytes s =>
    match s, h with
    | [], h | [_], h | [_, _], h | _ :: _ :: _ :: _ :: _, h => cases h; rfl
  | handle _ | done | failed => cases h; rfl

/-- The answer is turned down: the lock is released and the request ends with the failure. -/
theorem exchangeAnswered_error {s : State} {t : Nat} {c : Ctx} {link : Option Link} {live : Bool} {a heard : Answer}
    {f : Failure} (hf : s.findCtx t = some c) (hp : c.phase = .exch link live) (hh : exchangeHears live a = some heard)
    (ha : acceptAnswer heard = .error f) :
    s.exchangeAnswered t a = ((s.unlockLink link).traceExchange link heard).finish t (.fail f) := by
  simp [State.exchangeAnswered, hf, hp, hh, ha]

/-- The answer is accepted: the lock is released and the request goes on with the bytes. -/
theorem exchangeAnswered_ok {s : State} {t : Nat} {c : Ctx} {link : Option Link} {live : Bool} {a heard : Answer}
    {bs : List Byte} (hf : s.findCtx t = some c) (hp : c.phase = .exch link live) (hh : exchangeHears live a = some heard)
    (ha : acceptAnswer heard = .ok bs) :
    s.exchangeAnswered t a = ((s.unlockLink link).traceExchange link heard).received c bs := by
  simp [State.exchangeAnswered, hf, hp, hh, ha]

theorem received_reading {c : Ctx} (ho : c.origin ≠ .xfer) (bs : List Byte) (s : State) :
    s.received c bs = s.moveTo c.ticket (.decode bs) := by
  cases h : c.origin with
  | xfer => exact absurd h ho
  | read _ | sread _ => simp [State.received, h]

theorem received_xfer {c : Ctx} (ho : c.origin = .xfer) (bs : List Byte) (s : State) :
    s.received c bs = s.finish c.ticket (.ok (.response bs)) := by
  simp [State.received, ho]

theorem unlockLink_eq (s : State) (link : Option Link) :
    s.unlockLink link = { s with busy := (s.unlockLink link).busy } := by
  cases link <;> rfl

/-- A ticket names one request, so the transport's answer to a request context ends no CONFIGURE and no CLOSE. -/
theorem State.Inv.perform_answer {s : State} (hI : s.Inv) {c : Ctx} (hc : c ∈ s.contexts) (a : Answer) :
    perform (.answer c.ticket a) s = .next (s.exchangeAnswered c.ticket a) := by
  have hone := hI.ticketsGood.le_one c.ticket
  have hctx := countP_key_pos (key := Ctx.ticket) hc rfl
  simp only [State.ticketCount] at hone
  have hclosing : s.closing ≠ some c.ticket := by
    intro h
    simp only [h, Option.toList_some, List.count_singleton_self] at hone
    omega
  have hopening : s.opening.find? (fun o => decide (o.ticket = c.ticket)) = none := by
    refine List.find?_eq_none.2 fun o ho ht => ?_
    have hpos := countP_key_pos (key := Opening.ticket) ho (of_decide_eq_true ht)
    omega
  simp [perform, answerMove, hclosing, hopening]

/-- Settles O19: the answer reaches the exchange; where it is accepted a READ or SREAD goes on, and in every other case the
reply is the one XFER gives. -/
theorem everyAnswerReleasesTheLink : Obligations.EveryAnswerReleasesTheLink := by
  rintro s c link live a heard hI hc hp ha rfl
  have hf : s.findCtx c.ticket = some c := findCtx_of_mem hc rfl (hI.countP_ticket_le_one _)
  have hh := exchangeHears_ofExchange ha live
  rw [hI.perform_answer hc]
  refine ⟨(s.unlockLink link).busy, fun k => State.mem_busy_unlockLink hI.busySorted, fun bs ho hbs hlen => ?_,
    fun hends => ?_⟩
  · rw [exchangeAnswered_ok hf hp hh (hbs ▸ acceptAnswer_of_length hlen), received_reading ho, unlockLink_eq]
    rfl
  · cases hacc : acceptAnswer (if live then a else .failed) with
    | error f =>
      rw [exchangeAnswered_error hf hp hh hacc, xferReply_of_error hacc, unlockLink_eq]
      rfl
    | ok bs =>
      have hxfer : c.origin = .xfer :=
        hends.resolve_right fun hno => hno bs (eq_bytes_of_acceptAnswer_ok hacc) (acceptAnswer_ok hacc)
      rw [exchangeAnswered_ok hf hp hh hacc, received_xfer hxfer, xferReply_of_ok hacc, unlockLink_eq]
      rfl

end Sys2Proof.Machine
end

section
/-! # Encoding: frames, rows of the opcode table and the decoder (30_encoding.md)

Support: the table of Command frames against ENCODE and against the decoder, the RawResponse word, and the request that a
step runs; then the statements of this family. -/

namespace Sys2Proof.Machine

/-! ## ENCODE and the delivery of its Command -/

theorem State.replied_injective (s : State) : Function.Injective fun r => s.replied r := by
  intro r r' h
  simpa using congrArg State.replies h

theorem exec_encode_legal {chip : ChipModel} {ch : Int} (h : channelLegal chip ch) (s : State) :
    exec (.encode chip ch) s = .next (s.replied (.ok (.command (commandFrame chip ch.toNat)))) :=
  congrArg _ (encodeRequest_legal h s)

theorem exec_encode_illegal {chip : ChipModel} {ch : Int} (h : ¬ channelLegal chip ch) (s : State) :
    exec (.encode chip ch) s = .next (s.replied (.fail (.invalidChannel ch chip))) :=
  congrArg _ (encodeRequest_illegal h s)

/-- ENCODE answers a Command only for a legal channel, and then the Command of that channel. -/
theorem exec_encode_command {chip : ChipModel} {ch : Int} {s : State} {cmd : Frame}
    (h : exec (.encode chip ch) s = .next (s.replied (.ok (.command cmd)))) :
    channelLegal chip ch ∧ commandFrame chip ch.toNat = cmd := by
  by_cases hch : channelLegal chip ch
  · rw [exec_encode_legal hch] at h
    have hreply := s.replied_injective (Host.Outcome.next.inj h)
    exact ⟨hch, Result.command.inj (Reply.ok.inj hreply)⟩
  · rw [exec_encode_illegal hch] at h
    cases s.replied_injective (Host.Outcome.next.inj h)

/-- The marker and the channel bits do not overlap, and none is shifted out (R86). -/
theorem controlByte_toNat (chip : ChipModel) :
    ∀ n ≤ maxChannel chip, (controlByte chip n).toNat = 128 + 2 ^ shift chip * n := by
  cases chip <;> decide

theorem commandFrame_inj {chip : ChipModel} {n n' : Nat} (hn : n ≤ maxChannel chip) (hn' : n' ≤ maxChannel chip)
    (h : commandFrame chip n = commandFrame chip n') : n = n' := by
  have hbyte : controlByte chip n = controlByte chip n' := congrArg Frame.b1 h
  have hval := congrArg BitVec.toNat hbyte
  rw [controlByte_toNat chip n hn, controlByte_toNat chip n' hn'] at hval
  exact Nat.eq_of_mul_eq_mul_left (Nat.two_pow_pos _) (Nat.add_left_cancel hval)

/-! ## The exact Command-frame rows -/

theorem cmdRows_channelLegal : ∀ row ∈ cmdRows, channelLegal row.chip row.channel := by decide

theorem cmdRows_frame : ∀ row ∈ cmdRows, commandFrame row.chip row.channel = frameOfWord row.word := by decide

theorem cmdRows_word : ∀ row ∈ cmdRows, row.word ∈
    [0x018000#24, 0x019000#24, 0x01A000#24, 0x01B000#24, 0x01C000#24, 0x01D000#24, 0x01E000#24, 0x01F000#24] := by
  decide

/-- An exact row runs as ENCODE of its chip and channel (log entry 1). -/
theorem exec_cmdRow (s : State) : ∀ row ∈ cmdRows, exec row.instr s = exec (.encode row.chip row.channel) s := by
  simp only [cmdRows, List.forall_mem_cons, List.not_mem_nil, false_imp_iff, implies_true, and_true]
  exact ⟨rfl, rfl, rfl, rfl, rfl, rfl, rfl, rfl, rfl, rfl, rfl, rfl, rfl, rfl⟩

/-- Settles O4: the statement's rows are those of `cmdRows`, and every legal channel has one. -/
theorem commandFrameTable : Obligations.CommandFrameTable := by
  refine ⟨fun row hrow s => ?_, fun chip ch s cmd h => ?_, fun chip ch ch' s cmd h h' => ?_⟩
  · obtain ⟨r, hr, rfl⟩ : ∃ r ∈ cmdRows, (r.instr, r.chip, (r.channel : Int), r.word) = row := List.mem_map.1 hrow
    have hexec := exec_cmdRow s r hr
    refine ⟨?_, hexec.symm⟩
    rw [hexec, exec_encode_legal (cmdRows_channelLegal r hr), Int.toNat_natCast, cmdRows_frame r hr]
  · obtain ⟨hch, rfl⟩ := exec_encode_command h
    obtain ⟨row, hmem, -, -, hword⟩ := exists_cmdRow hch
    exact hword ▸ cmdRows_word row hmem
  · obtain ⟨⟨hpos, hmax⟩, hcmd⟩ := exec_encode_command h
    obtain ⟨⟨hpos', hmax'⟩, hcmd'⟩ := exec_encode_command h'
    have hnat := commandFrame_inj (by omega) (by omega) (hcmd.trans hcmd'.symm)
    omega

/-! ## The pattern rows -/

theorem commandFrame_mcp3002 (c : BitVec 1) : commandFrame .mcp3002 c.toNat = ⟨0x01#8, 1#1 ++ c ++ 0#6, 0x00#8⟩ := by
  revert c
  decide

theorem commandFrame_mcp3004 (cc : BitVec 2) : commandFrame .mcp3004 cc.toNat = ⟨0x01#8, 0b10#2 ++ cc ++ 0#4, 0x00#8⟩ := by
  revert cc
  decide

theorem commandFrame_mcp3008 (ccc : BitVec 3) : commandFrame .mcp3008 ccc.toNat = ⟨0x01#8, 1#1 ++ ccc ++ 0#4, 0x00#8⟩ := by
  revert ccc
  decide

/-- The channel bits of a pattern hold no channel beyond the chip's last. -/
theorem exec_encode_channelBits {chip : ChipModel} {w : Nat} (hw : 2 ^ w = maxChannel chip + 1) (c : BitVec w) (s : State) :
    exec (.encode chip c.toNat) s = .next (s.replied (.ok (.command (commandFrame chip c.toNat)))) := by
  have hlt : c.toNat < 2 ^ w := c.isLt
  exact exec_encode_legal ⟨Int.natCast_nonneg _, by omega⟩ s

/-- Settles O5: a pattern row runs as ENCODE of its channel bits, whose frame is the pattern. -/
theorem patternRowsAnswerTheirFrame : Obligations.PatternRowsAnswerTheirFrame := by
  refine fun s => ⟨fun c => ⟨?_, rfl⟩, fun cc => ⟨?_, rfl⟩, fun ccc => ⟨?_, rfl⟩⟩
  · rw [← commandFrame_mcp3002]
    exact exec_encode_channelBits rfl c s
  · rw [← commandFrame_mcp3004]
    exact exec_encode_channelBits rfl cc s
  · rw [← commandFrame_mcp3008]
    exact exec_encode_channelBits rfl ccc s

/-! ## The RawResponse row -/

theorem decodeRequest_three (x b1 b2 : Byte) (s : State) :
    s.decodeRequest [x, b1, b2] = s.replied (.ok (.code (codeOf b1 b2))) := rfl

theorem rspWord_toNat (x : BitVec 14) (d : BitVec 10) : (rspWord x d).toNat = 1024 * x.toNat + d.toNat := by
  rw [rspWord, BitVec.toNat_append, ← Nat.shiftLeft_add_eq_or_of_lt d.isLt, Nat.shiftLeft_eq]
  omega

/-- Bytes 1 and 2 of the RawResponse word hold its ten code bits, and of byte 1 the code takes no other (R87, R88). -/
theorem codeOf_rspWord (x : BitVec 14) (d : BitVec 10) :
    codeOf (frameOfWord (rspWord x d)).b1 (frameOfWord (rspWord x d)).b2 = d := by
  apply BitVec.eq_of_toNat_eq
  have hd : d.toNat < 1024 := d.isLt
  simp only [codeOf_toNat, frameOfWord, BitVec.extractLsb'_toNat, rspWord_toNat, Nat.shiftRight_eq_div_pow]
  omega

/-- Settles O9: DECODE of the row's three bytes, whose code is the ten code bits. -/
theorem rawResponseRowAnswersItsCode : Obligations.RawResponseRowAnswersItsCode := by
  intro x d s
  have hexec : exec (.rsp24 x d) s = .next (s.decodeRequest (frameOfWord (rspWord x d)).bytes) := rfl
  rw [hexec, Frame.bytes, decodeRequest_three, codeOf_rspWord]

/-! ## Decoded words against the opcode table -/

/-- A host request decodes only to the instruction whose row has its selector (R92): the arms with a chip, mode or length
check, the arms without one, and the arm of every other operand list. -/
theorem decodeHostop_tableRow {op : BitVec 3} {operands : List Operand} {i : Instr}
    (h : decodeHostop op operands = .ok i) : i.tableRow = (3, op.toNat, 7) := by
  unfold decodeHostop at h
  split at h
  case h_1 hop | h_2 hop | h_6 hop | h_7 hop | h_8 hop =>
    rw [hop]
    split at h <;> cases h
    rfl
  case h_3 hop | h_4 hop | h_5 hop | h_9 hop | h_10 hop =>
    rw [hop]
    cases h
    rfl
  case h_11 => cases h

/-- A Command frame decodes only to an exact row of its word. -/
theorem decode_cmd24_row {c : BitVec 2} {word : BitVec 24} {i : Instr} (h : decode (.cmd24 c word) = .ok i) :
    ∃ row ∈ cmdRows, row.word = word ∧ row.instr = i := by
  simp only [decode] at h
  split at h
  · cases h
  · split at h
    · next row hfind =>
      have hmatch := List.find?_some hfind
      simp only [decide_eq_true_eq] at hmatch
      exact ⟨row, List.mem_of_find?_eq_some hfind, hmatch.2, Except.ok.inj h⟩
    · cases h

theorem cmdRows_tableRow : ∀ row ∈ cmdRows, row.instr.tableRow = (24, row.word.toNat, 2 ^ 24 - 1) := by decide

/-- Settles O39: a selector and an exact row fix all their bits, the RawResponse row fixes none. -/
theorem decodedWordsMatchTheirRow : Obligations.DecodedWordsMatchTheirRow := by
  intro w i h
  cases w with
  | hostop op operands =>
    rw [decodeHostop_tableRow h]
    exact ⟨rfl, Nat.and_two_pow_sub_one_of_lt_two_pow op.isLt⟩
  | cmd24 c word =>
    obtain ⟨row, hmem, rfl, rfl⟩ := decode_cmd24_row h
    rw [cmdRows_tableRow row hmem]
    exact ⟨rfl, Nat.and_two_pow_sub_one_of_lt_two_pow row.word.isLt⟩
  | rsp24 word =>
    obtain rfl := Except.ok.inj h
    exact ⟨rfl, Nat.and_zero _⟩

/-! ## The request that a step runs -/

theorem step_request {s : State} {w : ReqWord} {rest : List Event} (hi : s.inbox = .request w :: rest) :
    step s = issue w { s with inbox := rest } := by
  simp only [step, hi]

theorem step_idle {s : State} (hi : s.inbox = []) : step s = .next s := by
  simp only [step, hi]

theorem issue_ok {w : ReqWord} {i : Instr} (hd : decode w = .ok i) (s : State) : issue w s = exec i s := by
  simp only [issue, hd]

theorem issue_error {w : ReqWord} {why : Reject} (hd : decode w = .error why) (s : State) :
    issue w s = .refused (.badRequest why) := by
  simp only [issue, hd]

/-- Settles O36: the first event is a request, which is issued, or there is none. -/
theorem stepRunsTheDecodedInstruction : Obligations.StepRunsTheDecodedInstruction := by
  refine fun s w rest => ⟨fun i hi hd => ?_, fun why hi hd => ?_, step_idle⟩
  · rw [step_request hi, issue_ok hd]
  · rw [step_request hi, issue_error hd]

/-- Settles O37: the decoder computes on each of the ten words. -/
theorem wordsOfTheSpecDecode : Obligations.WordsOfTheSpecDecode :=
  ⟨rfl, rfl, rfl, rfl, rfl, rfl, rfl, rfl, rfl, rfl⟩

end Sys2Proof.Machine
end

section
/-! # The command encoder (40_command_encoder.md)

Support: the replies of ENCODE, DECODE and SCALE, which are the same in every state; then the statements of this family. -/

namespace Sys2Proof.Machine

/-! ## ENCODE of a channel -/

/-- Settles O1: the statement's range and formulas are, chip by chip, those of the chip table (R37). -/
theorem encodeBuildsTheCommandOrRejectsTheChannel : Obligations.EncodeBuildsTheCommandOrRejectsTheChannel := by
  intro chip ch s
  cases chip <;> exact ⟨fun h => exec_encode_legal h s, fun h => exec_encode_illegal h s⟩

/-- Settles O2: the control byte's value is linear in the channel (`controlByte_toNat`), with 6 or 4 as the shift. -/
theorem controlByteLosesNoBit : Obligations.ControlByteLosesNoBit := by
  rintro chip ch ⟨hpos, hmax⟩
  rw [controlByte_toNat chip ch.toNat (by omega)]
  cases chip <;>
  · simp only [shift, maxChannel] at hmax ⊢
    omega

/-- Settles O3: the range check decides each corner channel, and a legal one has the Command of its channel. -/
theorem encodeCornerCases : Obligations.EncodeCornerCases := by
  refine fun s => ⟨fun chip => ?_, exec_encode_legal (by decide) s, exec_encode_legal (by decide) s,
    exec_encode_legal (by decide) s, fun p hp => exec_encode_illegal ?_ s, fun ch hch => ⟨_, exec_encode_legal ?_ s⟩⟩
  · cases chip <;> exact exec_encode_legal (by decide) s
  · revert p
    decide
  · revert ch
    decide

/-! ## The units answer alike in every state -/

/-- The instruction answers the reply `r` whatever the state, and changes nothing else. -/
def AlwaysReplies (i : Instr) (r : Reply) : Prop := ∀ s : State, exec i s = .next (s.replied r)

theorem exists_alwaysReplies_encode (chip : ChipModel) (ch : Int) : ∃ r, AlwaysReplies (.encode chip ch) r := by
  by_cases h : channelLegal chip ch
  · exact ⟨_, exec_encode_legal h⟩
  · exact ⟨_, exec_encode_illegal h⟩

theorem alwaysReplies_decode_ok {rsp : List Byte} {code : Code} (h : decodeUnit rsp = .ok code) :
    AlwaysReplies (.decode rsp) (.ok (.code code)) := by
  intro s
  simp only [exec, execDecode, State.decodeRequest, h, State.replyNow_eq_replied]

theorem alwaysReplies_decode_error {rsp : List Byte} {f : Failure} (h : decodeUnit rsp = .error f) :
    AlwaysReplies (.decode rsp) (.fail f) := by
  intro s
  simp only [exec, execDecode, State.decodeRequest, h, State.replyNow_eq_replied]

theorem exists_alwaysReplies_decode (rsp : List Byte) : ∃ r, AlwaysReplies (.decode rsp) r := by
  cases hd : decodeUnit rsp with
  | error f => exact ⟨_, alwaysReplies_decode_error hd⟩
  | ok code => exact ⟨_, alwaysReplies_decode_ok hd⟩

theorem alwaysReplies_scale (code : Code) {vref : NumT} (hv : 0 < vref) :
    AlwaysReplies (.scale code vref) (.ok (.reading (scaleUnit code vref))) :=
  fun _ => if_neg (not_le.2 hv)

theorem exec_scale_nonPositive (code : Code) {vref : NumT} (hv : vref ≤ 0) (s : State) :
    exec (.scale code vref) s = .refused .nonPositiveReference := if_pos hv

/-- A unit that answers a next state in one state always answers, with one reply (R117, R149, R267). -/
theorem exists_alwaysReplies_of_next {i : Instr} {s s' : State}
    (hi : (∃ chip ch, i = .encode chip ch) ∨ (∃ rsp, i = .decode rsp) ∨ ∃ code vref, i = .scale code vref)
    (h : exec i s = .next s') : ∃ r, AlwaysReplies i r := by
  obtain ⟨chip, ch, rfl⟩ | ⟨rsp, rfl⟩ | ⟨code, vref, rfl⟩ := hi
  · exact exists_alwaysReplies_encode chip ch
  · exact exists_alwaysReplies_decode rsp
  · rcases le_or_gt vref 0 with hv | hv
    · rw [exec_scale_nonPositive code hv] at h
      cases h
    · exact ⟨_, alwaysReplies_scale code hv⟩

/-- Settles O55: the unit's one reply is the reply in both states. -/
theorem unitsLookAtNoState : Obligations.UnitsLookAtNoState := by
  intro i s u hi s' h
  obtain ⟨r, hr⟩ := exists_alwaysReplies_of_next hi h
  exact ⟨r, Host.Outcome.next.inj (h.symm.trans (hr s)), hr u⟩

end Sys2Proof.Machine
end

section
/-! # The transaction executor (41_transaction_executor.md)

Support: an exchange that is answered and ends its request in the step that issues it; what the steps of one request leave of
another; which moves call the transport. Then the statements of this family. -/

namespace Sys2Proof.Machine

/-! ## A request that ends in the step that issues it -/

/-- A request that is no longer in flight has no own step. -/
theorem advance_of_noTicket {s : State} {t : Nat} (h : NoTicket t s.contexts) : s.advance t = s := by
  simp only [State.advance, findCtx_none h]

/-- A request that has ended in the step that issued it takes no further step. -/
theorem advance_exchanged {s : State} (hfresh : s.Fresh) (h : Handle) (cmd : Frame) (link : Option Link)
    (sent : List (Link × Frame)) (heard : Answer) (rest : List Event) (r : Reply) :
    (s.exchanged h cmd link sent heard rest r).advance s.nextTicket = s.exchanged h cmd link sent heard rest r :=
  advance_of_noTicket (s := s.exchanged h cmd link sent heard rest r) (noTicket_of_fresh hfresh)

/-- An answer that ends the request, an XFER's or one that is turned down, ends it with the reply that XFER gives. -/
theorem exchangeAnswered_ends {s : State} {t : Nat} {c : Ctx} {link : Option Link} {live : Bool} {a heard : Answer}
    (hf : s.findCtx t = some c) (hp : c.phase = .exch link live) (hh : exchangeHears live a = some heard)
    (hends : c.origin = .xfer ∨ ∀ bs, acceptAnswer heard ≠ .ok bs) :
    s.exchangeAnswered t a = ((s.unlockLink link).traceExchange link heard).finish t (xferReply heard) := by
  cases hacc : acceptAnswer heard with
  | error f => rw [exchangeAnswered_error hf hp hh hacc, xferReply_of_error hacc]
  | ok bs =>
    have hxfer : c.origin = .xfer := hends.resolve_right fun hno => hno bs hacc
    rw [exchangeAnswered_ok hf hp hh hacc, received_xfer hxfer, xferReply_of_ok hacc, (findCtx_some hf).2]

/-- The next request, admitted with the events `rest` to come, has taken its Acquire step. -/
def State.acquired (origin : Origin) (cmd : Frame) (h : Handle) (usable : Bool) (rest : List Event) (s : State) : State :=
  ((s.enqueue origin cmd h usable).withInbox rest).callExchange ⟨s.nextTicket, origin, cmd, h, usable, .wait⟩ (s.linkOf h)
    (usable && s.isOpen h)

section

variable {s : State} {h : Handle} (origin : Origin) (cmd : Frame) (usable : Bool) (rest : List Event)

theorem advance_enqueue (hfresh : s.Fresh) (hfree : s.linkBusy (s.linkOf h) = false) :
    ((s.enqueue origin cmd h usable).withInbox rest).advance s.nextTicket = s.acquired origin cmd h usable rest :=
  advance_acquires (s := (s.enqueue origin cmd h usable).withInbox rest)
    (findCtx_last (s.enqueue_contexts origin cmd h usable) (noTicket_of_fresh hfresh) rfl) rfl hfree

theorem acquired_contexts (hfresh : s.Fresh) :
    (s.acquired origin cmd h usable rest).contexts
      = s.contexts ++ [⟨s.nextTicket, origin, cmd, h, usable, .exch (s.linkOf h) (usable && s.isOpen h)⟩] := by
  rw [State.acquired, State.callExchange_contexts]
  exact setPhase_last (noTicket_of_fresh hfresh) rfl _

theorem findCtx_acquired (hfresh : s.Fresh) :
    (s.acquired origin cmd h usable rest).findCtx s.nextTicket
      = some ⟨s.nextTicket, origin, cmd, h, usable, .exch (s.linkOf h) (usable && s.isOpen h)⟩ :=
  findCtx_last (acquired_contexts origin cmd usable rest hfresh) (noTicket_of_fresh hfresh) rfl

/-- Release gives back the link that Acquire took. -/
theorem unlockLink_acquired_busy (hfree : s.linkBusy (s.linkOf h) = false) :
    ((s.acquired origin cmd h usable rest).unlockLink (s.linkOf h)).busy = s.busy := by
  cases hlink : s.linkOf h with
  | none => rw [State.unlockLink_busy_none, State.acquired, State.callExchange_busy, hlink]; rfl
  | some l =>
    have hnot : l ∉ s.busy := by simpa [hlink] using hfree
    rw [State.unlockLink_busy_some, State.acquired, State.callExchange_busy, hlink]
    exact erase_takeLink hnot

/-- After Release, Trace and the reply only the ticket and the logs tell of the request. -/
theorem acquired_finish (hfresh : s.Fresh) (hfree : s.linkBusy (s.linkOf h) = false) (heard : Answer) (r : Reply) :
    (((s.acquired origin cmd h usable rest).unlockLink (s.linkOf h)).traceExchange (s.linkOf h) heard).finish s.nextTicket r
      = s.exchanged h cmd (s.linkOf h) (sentFrames (s.linkOf h) (usable && s.isOpen h) cmd) heard rest r := by
  have hbusy := unlockLink_acquired_busy origin cmd usable rest hfree
  have hctx : dropCtx s.nextTicket (s.acquired origin cmd h usable rest).contexts = s.contexts := by
    rw [acquired_contexts origin cmd usable rest hfresh, dropCtx_last (noTicket_of_fresh hfresh) rfl]
  rw [unlockLink_eq, hbusy]
  simp only [State.finish, State.deliver, State.traceExchange, State.exchanged, hctx]
  simp [State.acquired, State.withInbox]

end

/-- A request on a free link (or on no link) whose answer is the next event and ends it makes one exchange, and its reply is
the one that XFER gives for what is heard (R130). -/
theorem startExchange_ends {s : State} {h : Handle} {usable : Bool} {a heard : Answer} {rest : List Event} {origin : Origin}
    (hfresh : s.Fresh) (hfree : s.linkBusy (s.linkOf h) = false) (hi : s.inbox = .move (.answer s.nextTicket a) :: rest)
    (hh : exchangeHears (usable && s.isOpen h) a = some heard)
    (hends : origin = .xfer ∨ ∀ bs, acceptAnswer heard ≠ .ok bs) (cmd : Frame) :
    s.startExchange origin cmd h usable
      = s.exchanged h cmd (s.linkOf h) (sentFrames (s.linkOf h) (usable && s.isOpen h) cmd) heard rest (xferReply heard) := by
  have hanswer := exchangeAnswered_ends (findCtx_acquired origin cmd usable rest hfresh) rfl hh hends
  rw [acquired_finish origin cmd usable rest hfresh hfree] at hanswer
  have hdone := advance_exchanged hfresh h cmd (s.linkOf h) (sentFrames (s.linkOf h) (usable && s.isOpen h) cmd) heard rest
    (xferReply heard)
  rw [State.startExchange, runIfAnswered_of_answer (s := s.enqueue origin cmd h usable) hi,
    advance_enqueue origin cmd usable rest hfresh hfree, hanswer, hdone, hdone]

/-- Settles O15: an XFER ends with whatever its exchange hears, on an open handle the answer itself. -/
theorem xferExchangesOnceAndChecksTheLength : Obligations.XferExchangesOnceAndChecksTheLength := by
  intro cmd h link a rest s hfresh hfind hbusy ha hi
  have hlink : s.linkOf h = some link := linkOf_of_find hfind
  have hopen : s.isOpen h = true := isOpen_of_find hfind
  have hfree : s.linkBusy (s.linkOf h) = false := by simpa [hlink] using hbusy
  have hheard : exchangeHears (true && s.isOpen h) a = some a := by simpa [hopen] using exchangeHears_ofExchange ha true
  have hstart := startExchange_ends hfresh hfree hi hheard (.inl rfl) cmd
  rw [hlink, hopen] at hstart
  exact congrArg _ hstart

/-- On a handle that is not open no frame goes out. -/
theorem sentFrames_dead (link : Option Link) (cmd : Frame) : sentFrames link false cmd = [] := by
  cases link <;> rfl

/-- Settles O16: an exchange on a handle that is not open hears Failed, which ends an XFER and a READ alike. -/
theorem closedHandleFailsTheExchange : Obligations.ClosedHandleFailsTheExchange := by
  intro cmd chip ch vref h a rest s hfresh hclosed hbusy ha hi
  have hfree : s.linkBusy (s.linkOf h) = false := by
    cases hlink : s.linkOf h with
    | none => rfl
    | some l => simpa using hbusy l hlink
  have hheard : exchangeHears (true && s.isOpen h) a = some .failed := by
    simpa [hclosed] using exchangeHears_ofExchange ha false
  have hstart (origin : Origin) (cmd : Frame) :=
    startExchange_ends (origin := origin) hfresh hfree hi hheard (.inr fun bs hok => by cases hok) cmd
  simp only [hclosed, Bool.and_false, sentFrames_dead] at hstart
  refine ⟨congrArg _ (hstart .xfer cmd), fun hch hv => ?_⟩
  rw [exec_read_legal hch hv, hstart]
  rfl

/-! ## What the steps of one request leave of another -/

theorem mem_advance_other {s : State} {t : Nat} {c : Ctx} (hc : c ∈ s.contexts) (ht : c.ticket ≠ t) :
    c ∈ (s.advance t).contexts := by
  rcases advance_cases s t with h | ⟨d, hf, -, -, h⟩ | ⟨d, rsp, code, -, -, -, h⟩ | ⟨d, rsp, f, -, -, -, h⟩ |
      ⟨d, code, v, -, -, -, h⟩ <;> rw [h]
  · exact hc
  · rw [State.callExchange_contexts, (findCtx_some hf).2]
    exact (mem_setPhase_other ht).2 hc
  · exact (mem_setPhase_other ht).2 hc
  · exact mem_dropCtx.2 ⟨hc, ht⟩
  · exact mem_dropCtx.2 ⟨hc, ht⟩

theorem mem_exchangeAnswered_other {s : State} {t : Nat} {c : Ctx} (hc : c ∈ s.contexts) (ht : c.ticket ≠ t) (a : Answer) :
    c ∈ (s.exchangeAnswered t a).contexts := by
  rcases exchangeAnswered_cases s t a with h |
      ⟨d, link, live, heard, -, -, -, ⟨cause, -, h⟩ | ⟨bs, -, -, h⟩ | ⟨bs, -, -, h⟩⟩ <;> rw [h]
  · exact hc
  · exact mem_dropCtx.2 ⟨by simpa using hc, ht⟩
  · exact mem_dropCtx.2 ⟨by simpa using hc, ht⟩
  · exact (mem_setPhase_other ht).2 (by simpa using hc)

theorem exchangeAnswered_inbox (s : State) (t : Nat) (a : Answer) : (s.exchangeAnswered t a).inbox = s.inbox := by
  rcases exchangeAnswered_cases s t a with h |
      ⟨c, link, live, heard, -, -, -, ⟨cause, -, h⟩ | ⟨bs, -, -, h⟩ | ⟨bs, -, -, h⟩⟩ <;>
    simp [h]

/-- In EXCH a request is blocked: its own step does nothing. -/
theorem advance_exch {s : State} {t : Nat} {c : Ctx} {link : Option Link} {live : Bool} (hf : s.findCtx t = some c)
    (hp : c.phase = .exch link live) : s.advance t = s := by
  simp [State.advance, hf, hp]

/-- A request in EXCH holds the lock of its link. -/
theorem State.Inv.mem_busy_of_exch {s : State} (hI : s.Inv) {c : Ctx} {l : Link} {live : Bool} (hc : c ∈ s.contexts)
    (hp : c.phase = .exch (some l) live) : l ∈ s.busy := by
  by_contra hfree
  have hzero := (hI.exclusive l).2 hfree
  have hpos : 0 < s.contexts.countP fun d => d.holds l :=
    List.countP_pos_iff.2 ⟨c, hc, by simp [Ctx.holds, hp]⟩
  simp only [State.holders] at hzero
  omega

/-! ## An exchange that is never answered -/

@[simp] theorem State.endSession_inbox (s : State) (t : Nat) (r : Regs) (a : Answer) :
    (s.endSession t r a).inbox = s.inbox := by simp [State.endSession]

/-- `c` is in flight and none of the events to come is an answer to it. -/
structure State.Unanswered (c : Ctx) (s : State) : Prop where
  inFlight : c ∈ s.contexts
  noAnswer : ∀ a, Event.move (.answer c.ticket a) ∉ s.inbox

namespace State.Unanswered

variable {c : Ctx} {s : State}

theorem keep (h : s.Unanswered c) {s' : State} (hc : c ∈ s'.contexts) (hi : s'.inbox = s.inbox) : s'.Unanswered c :=
  ⟨hc, fun a ha => h.noAnswer a (hi ▸ ha)⟩

theorem consume (h : s.Unanswered c) {e : Event} {rest : List Event} (hi : s.inbox = e :: rest) :
    (s.withInbox rest).Unanswered c :=
  ⟨h.inFlight, fun a ha => h.noAnswer a (hi ▸ List.mem_cons_of_mem e ha)⟩

/-- Its own step is blocked, and the others' do not touch it. -/
theorem advance (h : s.Unanswered c) (hI : s.Inv) {link : Option Link} {live : Bool} (hp : c.phase = .exch link live)
    (t : Nat) : (s.advance t).Unanswered c := by
  refine h.keep ?_ (advance_inbox s t)
  by_cases ht : c.ticket = t
  · rw [advance_exch (findCtx_of_mem h.inFlight ht (hI.countP_ticket_le_one t)) hp]
    exact h.inFlight
  · exact mem_advance_other h.inFlight ht

/-- An answer that comes is another request's. -/
theorem exchangeAnswered (h : s.Unanswered c) {t : Nat} {a : Answer} {rest : List Event}
    (hi : s.inbox = .move (.answer t a) :: rest) : ((s.withInbox rest).exchangeAnswered t a).Unanswered c := by
  have ht : c.ticket ≠ t := by
    rintro rfl
    exact h.noAnswer a (hi ▸ List.mem_cons_self)
  exact (h.consume hi).keep (mem_exchangeAnswered_other (h.consume hi).inFlight ht a) (exchangeAnswered_inbox _ t a)

end State.Unanswered

/-- The invariant is needed beside it: a ticket names one context. -/
theorem unanswered_keptByUpdates {c : Ctx} {link : Option Link} {live : Bool} (hp : c.phase = .exch link live) :
    KeptByUpdates fun s => s.Inv ∧ s.Unanswered c where
  consume _ _ rest hi h := ⟨h.1.withInbox rest, h.2.consume hi⟩
  replyNow _ r h := ⟨h.1.replyNow r, h.2.keep h.2.inFlight rfl⟩
  enqueue _ _ _ hd usable ha h := ⟨h.1.enqueue hd usable ha, h.2.keep (List.mem_append_left _ h.2.inFlight) rfl⟩
  advance _ t h := ⟨h.1.advance t, h.2.advance h.1 hp t⟩
  exchangeAnswered _ t a rest hi h := ⟨(h.1.withInbox rest).exchangeAnswered t a, h.2.exchangeAnswered hi⟩
  startOpen _ _ ht hv hz h := ⟨h.1.startOpen ht hv hz, h.2.keep h.2.inFlight rfl⟩
  opened _ _ hd ho _ _ h := ⟨h.1.opened hd ho, h.2.keep h.2.inFlight rfl⟩
  openFailed _ _ ho h := ⟨h.1.openFailed ho _, h.2.keep h.2.inFlight rfl⟩
  startClose _ _ hs hc _ h := ⟨h.1.startClose hs hc, h.2.keep h.2.inFlight rfl⟩
  endSession _ _ _ a hs hc _ h :=
    ⟨h.1.endSession a hs hc, h.2.keep (by simpa using h.2.inFlight) (by simp)⟩
  outsideOpen _ _ l ho h := ⟨h.1.openHandle l ho, h.2.keep h.2.inFlight rfl⟩
  outsideClose _ _ ho h := ⟨h.1.releaseHandle ho, h.2.keep (by simpa using h.2.inFlight) (by simp)⟩
  outsideTake _ _ hl h := ⟨h.1.outsideTake hl, h.2.keep h.2.inFlight rfl⟩
  outsideFree _ _ hl h := ⟨h.1.outsideFree hl, h.2.keep h.2.inFlight rfl⟩

/-- Settles O48: no update ends an exchange that no event answers, and a request in its exchange holds its link. -/
theorem unansweredExchangeHangsItsLink : Obligations.UnansweredExchangeHangsItsLink := by
  intro s s' c link live k hI hc hp hno hrun
  obtain ⟨hI', hc', -⟩ := (unanswered_keptByUpdates hp).run ⟨hI, ⟨hc, hno⟩⟩ hrun
  refine ⟨hc', ?_⟩
  rintro l rfl
  exact hI'.mem_busy_of_exch hc' hp

/-! ## The calls that a move makes -/

@[simp] theorem State.endSession_calls (s : State) (t : Nat) (r : Regs) (a : Answer) :
    (s.endSession t r a).calls = s.calls := by simp [State.endSession]

theorem exchangeAnswered_calls (s : State) (t : Nat) (a : Answer) : (s.exchangeAnswered t a).calls = s.calls := by
  rcases exchangeAnswered_cases s t a with h |
      ⟨c, link, live, heard, -, -, -, ⟨cause, -, h⟩ | ⟨bs, -, -, h⟩ | ⟨bs, -, -, h⟩⟩ <;>
    simp [h]

theorem openAnswered_calls {s s' : State} {o : Opening} {a : Answer} (h : s.openAnswered o a = .next s') :
    s'.calls = s.calls := by
  cases a with
  | handle hd =>
    simp only [State.openAnswered] at h
    split_ifs at h
    exact Host.Outcome.next.inj h ▸ rfl
  | failed | bytes _ | done => exact Host.Outcome.next.inj h ▸ rfl

theorem closeAnswered_calls {s s' : State} {t : Nat} {a : Answer} (h : s.closeAnswered t a = .next s') :
    s'.calls = s.calls := by
  cases hs : s.session with
  | unconfigured | closed r =>
    simp only [State.closeAnswered, hs, Host.Outcome.next.injEq] at h
    rw [h]
  | opened r =>
    rcases closeAnswered_cases hs h with rfl | rfl
    · rfl
    · exact s.endSession_calls t r a

theorem answerMove_calls {s s' : State} {t : Nat} {a : Answer} (h : answerMove t a s = .next s') : s'.calls = s.calls := by
  unfold answerMove at h
  split at h
  · exact closeAnswered_calls h
  · split at h
    · exact openAnswered_calls h
    · exact Host.Outcome.next.inj h ▸ exchangeAnswered_calls s t a

/-- An own step calls nothing, or it is the Acquire of a waiting request. -/
theorem advance_calls (s : State) (t : Nat) :
    (s.advance t).calls = s.calls ∨
    ∃ c link live, s.findCtx t = some c ∧ c.phase = .wait ∧ s.advance t = s.callExchange c link live := by
  rcases advance_cases s t with h | ⟨c, hf, hp, -, h⟩ | ⟨c, rsp, code, -, -, -, h⟩ | ⟨c, rsp, f, -, -, -, h⟩ |
      ⟨c, code, v, -, -, -, h⟩
  · exact .inl (by rw [h])
  · exact .inr ⟨c, _, _, hf, hp, h⟩
  · exact .inl (by rw [h, State.moveTo_calls])
  · exact .inl (by rw [h, State.finish_calls])
  · exact .inl (by rw [h, State.finish_calls])

theorem mem_setPhase_same {t : Nat} {cs : List Ctx} {c : Ctx} (hc : c ∈ cs) (ht : c.ticket = t) (p : Phase) :
    { c with phase := p } ∈ setPhase t p cs := List.mem_map.2 ⟨c, hc, if_pos ht⟩

/-- Settles O51: no answer and no other user makes a call of this block, and Acquire puts its request in EXCH. -/
theorem onlyAcquireCallsExchange : Obligations.OnlyAcquireCallsExchange := by
  intro s s' m _ h
  cases m with
  | advance t =>
    obtain rfl := Host.Outcome.next.inj h
    rcases advance_calls s t with hcalls | ⟨c, link, live, hf, hp, hadv⟩
    · exact .inl hcalls
    · obtain ⟨hc, ht⟩ := findCtx_some hf
      refine .inr ⟨t, c, rfl, hf, hp, by rw [hadv, State.callExchange_calls],
        { c with phase := .exch link live }, ?_, ht, rfl⟩
      rw [hadv, State.callExchange_contexts]
      exact mem_setPhase_same hc rfl _
  | answer t a => exact .inl (answerMove_calls h)
  | outsideOpen | outsideTake | outsideFree =>
    simp only [perform, outsideOpenMove, outsideTakeMove, outsideFreeMove] at h
    split at h <;> exact .inl (Host.Outcome.next.inj h ▸ rfl)
  | outsideClose hd =>
    simp only [perform, outsideCloseMove] at h
    split at h <;> cases h
    · exact .inl rfl
    · exact .inl (s.releaseHandle_calls hd)

end Sys2Proof.Machine
end

section
/-! # The response decoder (42_response_decoder.md)

Support: the code's formula as R147 writes it, and its bits; then the statements of this family. -/

namespace Sys2Proof.Machine

theorem alwaysReplies_decode_three (x b1 b2 : Byte) : AlwaysReplies (.decode [x, b1, b2]) (.ok (.code (codeOf b1 b2))) :=
  alwaysReplies_decode_ok (decodeUnit_three x b1 b2)

/-- Ten bits hold the formula of R147: nothing overflows. -/
theorem codeOf_toNat_eq_or (b1 b2 : Byte) : (codeOf b1 b2).toNat = ((b1.toNat &&& 0b11) <<< 8) ||| b2.toNat := by
  have hhigh : (b1.toNat &&& 0b11) <<< 8 < 2 ^ 10 :=
    Nat.shiftLeft_lt (Nat.and_lt_two_pow b1.toNat (by decide : 0b11 < 2 ^ 2))
  have hlow : b2.toNat < 2 ^ 10 := b2.isLt.trans (by decide)
  exact Nat.mod_eq_of_lt (Nat.or_lt_two_pow hhigh hlow)

/-- Of byte 1 the code takes bits 1:0 only (R150). -/
theorem codeOf_congr {b1 b1' : Byte} (h : b1.extractLsb' 0 2 = b1'.extractLsb' 0 2) (b2 : Byte) :
    codeOf b1 b2 = codeOf b1' b2 := by
  have hmod : b1.toNat % 4 = b1'.toNat % 4 := by simpa using congrArg BitVec.toNat h
  apply BitVec.eq_of_toNat_eq
  rw [codeOf_toNat, codeOf_toNat, hmod]

/-- A code split into its two high bits and its low byte is put together again (R148). -/
theorem codeOf_split (c : Code) :
    codeOf (BitVec.ofNat 8 (c.toNat >>> 8)) (BitVec.ofNat 8 (c.toNat &&& 255)) = c := by
  have hlow : c.toNat &&& 255 = c.toNat % 256 := Nat.and_two_pow_sub_one_eq_mod c.toNat 8
  have hc : c.toNat < 1024 := c.isLt
  apply BitVec.eq_of_toNat_eq
  rw [codeOf_toNat, BitVec.toNat_ofNat, BitVec.toNat_ofNat, hlow, Nat.shiftRight_eq_div_pow]
  omega

/-- Settles O6: the reply is `codeOf` of bytes 1 and 2, by the formula and by its closed form. -/
theorem decodeReassemblesTheCode : Obligations.DecodeReassemblesTheCode := fun x b1 b2 s =>
  ⟨codeOf b1 b2, alwaysReplies_decode_three x b1 b2 s, codeOf_toNat_eq_or b1 b2, codeOf_toNat b1 b2,
    Nat.le_of_lt_succ (codeOf b1 b2).isLt⟩

/-- Settles O8: `codeOf` undoes the split of a code, and reads neither element 0 nor bits 7:2 of element 1. -/
theorem decodeIsOntoAndIgnoresFourteenBits : Obligations.DecodeIsOntoAndIgnoresFourteenBits := by
  refine ⟨fun c x s => ?_, fun x x' b1 b1' b2 s h => ?_⟩
  · rw [alwaysReplies_decode_three, codeOf_split]
  · rw [alwaysReplies_decode_three, alwaysReplies_decode_three, codeOf_congr h]

/-- Settles O7: the length check fails before any byte is looked at (R146). -/
theorem decodeRejectsEveryOtherLength : Obligations.DecodeRejectsEveryOtherLength :=
  fun _ s h => alwaysReplies_decode_error (decodeUnit_other h) s

end Sys2Proof.Machine
end

section
/-! # The voltage scaler (43_voltage_scaler.md)

Support: the laws of the reading in its code and in its reference voltage, on exact rationals; then the statements of this
family. -/

namespace Sys2Proof.Machine

theorem scaleUnit_eq (code : Code) (vref : NumT) : scaleUnit code vref = (code.toNat : NumT) * vref / 1024 := rfl

/-- The reading is linear in the reference voltage (R164). -/
theorem scaleUnit_mul (code : Code) (k vref : NumT) : scaleUnit code (k * vref) = k * scaleUnit code vref := by
  rw [scaleUnit_eq, scaleUnit_eq, mul_left_comm, mul_div_assoc]

/-- Each step of the code adds the same amount, with no hypothesis on the reference voltage (R164). -/
theorem scaleUnit_sub_of_succ {code code' : Code} (h : code'.toNat = code.toNat + 1) (vref : NumT) :
    scaleUnit code' vref - scaleUnit code vref = vref / 1024 := by
  rw [scaleUnit_eq, scaleUnit_eq, h, Nat.cast_succ]
  ring

theorem scaleUnit_lt_scaleUnit {code code' : Code} (h : code.toNat < code'.toNat) {vref : NumT} (hv : 0 < vref) :
    scaleUnit code vref < scaleUnit code' vref := by
  have hprod : (code.toNat : NumT) * vref < code'.toNat * vref := mul_lt_mul_of_pos_right (Nat.cast_lt.2 h) hv
  rw [scaleUnit_eq, scaleUnit_eq]
  exact div_lt_div_of_pos_right hprod (by norm_num)

/-- Two codes with one reading are one code: the reading is strictly increasing in the code. -/
theorem scaleUnit_injective {vref : NumT} (hv : 0 < vref) : Function.Injective fun code => scaleUnit code vref := by
  intro code code' h
  apply BitVec.eq_of_toNat_eq
  rcases lt_trichotomy code.toNat code'.toNat with hlt | heq | hgt
  · exact absurd h (scaleUnit_lt_scaleUnit hlt hv).ne
  · exact heq
  · exact absurd h (scaleUnit_lt_scaleUnit hgt hv).ne'

theorem scaleUnit_zero (vref : NumT) : scaleUnit 0 vref = 0 := by simp [scaleUnit_eq]

theorem scaleUnit_last (vref : NumT) : scaleUnit 1023 vref = vref * 1023 / 1024 := by
  rw [mul_comm vref]
  rfl

theorem scaleUnit_half (vref : NumT) : scaleUnit 512 vref = vref / 2 := by
  have hcode : ((512 : Code).toNat : NumT) = 512 := rfl
  rw [scaleUnit_eq, hcode]
  ring

/-- Settles O12: the range and the order of the readings, and their values at three codes. -/
theorem scalerRangeAndShape : Obligations.ScalerRangeAndShape := fun vref hv =>
  ⟨scaleUnit_zero vref, scaleUnit_last vref, (scaleUnit_range 1023 hv).2, fun code => scaleUnit_range code hv,
    fun _ _ h => scaleUnit_sub_of_succ h vref, fun _ _ h => scaleUnit_lt_scaleUnit h hv,
    fun code k => scaleUnit_mul code k vref, scaleUnit_half vref, fun _ _ h => scaleUnit_injective hv h⟩

/-- The divisor is 2 ^ 10, so the division moves the binary point by ten places (R165). -/
theorem scaleUnit_fixedPoint (code : Code) (V F : Nat) :
    scaleUnit code ((V : NumT) / 2 ^ F) = ((code.toNat * V : Nat) : NumT) / 2 ^ (F + 10) := by
  have hdivisor : (1024 : NumT) = 2 ^ 10 := by norm_num
  rw [scaleUnit_eq, hdivisor, Nat.cast_mul, pow_add, ← mul_div_assoc, div_div]

/-- The integer product needs the bits of the code and those of the other factor. -/
theorem code_mul_lt_two_pow (code : Code) {V width : Nat} (hV : V < 2 ^ width) : code.toNat * V < 2 ^ (10 + width) := by
  rw [pow_add]
  exact Nat.mul_lt_mul'' code.isLt hV

/-- Settles O13: moving the binary point loses nothing, and the product fits its bits. -/
theorem fixedPointScalerIsExact : Obligations.FixedPointScalerIsExact := fun code V F _ hV =>
  ⟨scaleUnit_fixedPoint code V F, code_mul_lt_two_pow code hV⟩

/-- Settles O11: SCALE replies with the reading of `scaleUnit`, whose formula is that of R160. -/
theorem scaleMultipliesAndDividesBy1024 : Obligations.ScaleMultipliesAndDividesBy1024 := by
  intro code vref s hv
  rw [alwaysReplies_scale code hv, scaleUnit_eq]

theorem exec_read_nonPositive (chip : ChipModel) (ch : Int) {vref : NumT} (hv : vref ≤ 0) (h : Handle) (s : State) :
    exec (.read chip ch vref h) s = .refused .nonPositiveReference := if_pos hv

/-- Settles O14: both requests test the reference voltage before anything else (R166, R186). -/
theorem nonPositiveReferenceIsRefused : Obligations.NonPositiveReferenceIsRefused :=
  fun chip ch code _ h s hv => ⟨exec_scale_nonPositive code hv s, exec_read_nonPositive chip ch hv h s⟩

end Sys2Proof.Machine
end

section
/-! # The read orchestrator (44_read_orchestrator.md)

Support: the two steps after the exchange, and a run of the machine that takes a request step by step; then the statements of
this family. -/

namespace Sys2Proof.Machine

/-! ## DECODE and SCALE -/

theorem advance_decodes {s : State} {t : Nat} {c : Ctx} {x b1 b2 : Byte} (hf : s.findCtx t = some c)
    (hp : c.phase = .decode [x, b1, b2]) : s.advance t = s.moveTo t (.scale (codeOf b1 b2)) := by
  simp [State.advance, hf, hp]

theorem advance_scales {s : State} {t : Nat} {c : Ctx} {code : Code} {v : ReadVals} (hf : s.findCtx t = some c)
    (hp : c.phase = .scale code) (hv : c.origin.vals = some v) :
    s.advance t = s.finish t (.ok (.reading (scaleUnit code v.vref))) := by
  simp [State.advance, hf, hp, hv]

/-- Settles O23: the context of `c` is the one its ticket finds, so its own step is the one of its phase. -/
theorem decodeAndScaleFollowTheExchange : Obligations.DecodeAndScaleFollowTheExchange := by
  intro s c hI hc
  have hf : s.findCtx c.ticket = some c := findCtx_of_mem hc rfl (hI.countP_ticket_le_one _)
  refine ⟨fun x b1 b2 hp => ⟨codeOf b1 b2, codeOf_toNat b1 b2, ?_⟩, fun code v hp hv => ?_⟩
  · exact congrArg _ (advance_decodes hf hp)
  · exact congrArg _ (advance_scales hf hp hv)

/-! ## A reading request that ends in the step that issues it -/

/-- The two steps that a reading request takes once its bytes are there. -/
theorem advance_advance_moveTo_decode {s : State} {t : Nat} {c : Ctx} {v : ReadVals} (hf : s.findCtx t = some c)
    (hv : c.origin.vals = some v) (x b1 b2 : Byte) :
    ((s.moveTo t (.decode [x, b1, b2])).advance t).advance t
      = s.finish t (.ok (.reading (scaleUnit (codeOf b1 b2) v.vref))) := by
  rw [advance_decodes (findCtx_moveTo hf _) rfl, moveTo_moveTo, advance_scales (findCtx_moveTo hf _) rfl hv, moveTo_finish]

theorem readReply_three (vref : NumT) (x b1 b2 : Byte) :
    readReply vref (.bytes [x, b1, b2]) = .ok (.reading (scaleUnit (codeOf b1 b2) vref)) := by
  rw [scaleUnit_eq, codeOf_toNat]
  rfl

/-- What XFER turns down, READ turns down with the same failure. -/
theorem readReply_eq_xferReply {a : Answer} (h : ∀ bs, acceptAnswer a ≠ .ok bs) (vref : NumT) :
    readReply vref a = xferReply a := by
  cases a with
  | bytes s =>
    match s, h with
    | [x, b1, b2], h => exact absurd (acceptAnswer_three x b1 b2) (h _)
    | [], _ | [_], _ | [_, _], _ | _ :: _ :: _ :: _ :: _, _ => rfl
  | handle _ | done | failed => rfl

theorem Origin.ne_xfer_of_vals {origin : Origin} {v : ReadVals} (hv : origin.vals = some v) : origin ≠ .xfer := by
  rintro rfl
  cases hv

/-- Release and Trace move no request. -/
theorem findCtx_released (s : State) (link : Option Link) (heard : Answer) (t : Nat) :
    ((s.unlockLink link).traceExchange link heard).findCtx t = s.findCtx t := by
  rw [unlockLink_eq]
  rfl

/-- A reading request on a free link (or on no link) whose answer is the next event makes one exchange and replies with the
reading of what it hears, or with the TransportError (R180). -/
theorem startExchange_reads {s : State} {h : Handle} {usable : Bool} {a heard : Answer} {rest : List Event} {origin : Origin}
    {v : ReadVals} (hv : origin.vals = some v) (hfresh : s.Fresh) (hfree : s.linkBusy (s.linkOf h) = false)
    (hi : s.inbox = .move (.answer s.nextTicket a) :: rest) (hh : exchangeHears (usable && s.isOpen h) a = some heard)
    (cmd : Frame) :
    s.startExchange origin cmd h usable
      = s.exchanged h cmd (s.linkOf h) (sentFrames (s.linkOf h) (usable && s.isOpen h) cmd) heard rest
          (readReply v.vref heard) := by
  cases hacc : acceptAnswer heard with
  | error f =>
    have hnot : ∀ bs, acceptAnswer heard ≠ .ok bs := by simp [hacc]
    rw [startExchange_ends hfresh hfree hi hh (.inr hnot), readReply_eq_xferReply hnot]
  | ok bs =>
    obtain ⟨x, b1, b2, rfl⟩ := eq_three_of_length (acceptAnswer_ok hacc)
    obtain rfl := eq_bytes_of_acceptAnswer_ok hacc
    have hf := findCtx_acquired origin cmd (h := h) usable rest hfresh
    have hanswer := exchangeAnswered_ok hf rfl hh hacc
    rw [received_reading (Origin.ne_xfer_of_vals hv)] at hanswer
    have hreleased := (findCtx_released _ (s.linkOf h) (.bytes [x, b1, b2]) _).trans hf
    rw [State.startExchange, runIfAnswered_of_answer (s := s.enqueue origin cmd h usable) hi,
      advance_enqueue origin cmd usable rest hfresh hfree, hanswer, advance_advance_moveTo_decode hreleased hv,
      acquired_finish origin cmd usable rest hfresh hfree, readReply_three]

/-- Settles O20: on an open handle the exchange hears the answer itself. -/
theorem readBuildsExchangesDecodesAndScales : Obligations.ReadBuildsExchangesDecodesAndScales := by
  intro chip ch vref h link a rest s hfresh hch hv hfind hbusy ha hi
  have hlink : s.linkOf h = some link := linkOf_of_find hfind
  have hopen : s.isOpen h = true := isOpen_of_find hfind
  have hfree : s.linkBusy (s.linkOf h) = false := by simpa [hlink] using hbusy
  have hheard : exchangeHears (true && s.isOpen h) a = some a := by simpa [hopen] using exchangeHears_ofExchange ha true
  have hstart := startExchange_reads (origin := .read ⟨ch, chip, vref⟩) rfl hfresh hfree hi hheard
    (commandFrame chip ch.toNat)
  rw [hlink, hopen] at hstart
  rw [exec_read_legal hch hv, hstart]
  rfl

/-! ## One step and step by step -/

theorem run_zero (s : State) : Sys2Proof.core.run 0 s = .next s := rfl

theorem run_advance (k t : Nat) (rest : List Event) (s : State) :
    Sys2Proof.core.run (k + 1) (s.withInbox (.move (.advance t) :: rest))
      = Sys2Proof.core.run k ((s.advance t).withInbox rest) := by
  rw [← advance_withInbox]
  rfl

theorem run_answer {s : State} (hI : s.Inv) {c : Ctx} (hc : c ∈ s.contexts) (k : Nat) (a : Answer) (rest : List Event) :
    Sys2Proof.core.run (k + 1) (s.withInbox (.move (.answer c.ticket a) :: rest))
      = Sys2Proof.core.run k ((s.exchangeAnswered c.ticket a).withInbox rest) := by
  have hstep : Sys2Proof.core.step (s.withInbox (.move (.answer c.ticket a) :: rest))
      = .next ((s.withInbox rest).exchangeAnswered c.ticket a) := (hI.withInbox rest).perform_answer hc a
  simp only [Host.Core.run, hstep, exchangeAnswered_withInbox]

/-- A waiting request is still in flight after its own step, whether Acquire is blocked or not. -/
theorem exists_ctx_advance_wait {s : State} {t : Nat} {c : Ctx} (hf : s.findCtx t = some c) (hp : c.phase = .wait) :
    ∃ d ∈ (s.advance t).contexts, d.ticket = t := by
  obtain ⟨hc, ht⟩ := findCtx_some hf
  have hadv : s.advance t = s.acquire c := by simp [State.advance, hf, hp]
  rw [hadv]
  rcases acquire_cases s c with ⟨-, h⟩ | ⟨-, h⟩ <;> rw [h]
  · exact ⟨c, hc, ht⟩
  · rw [State.callExchange_contexts]
    exact ⟨_, mem_setPhase_same hc rfl _, ht⟩

/-- A waiting request whose answer is the next event runs as it does when Acquire, the answer, DECODE and SCALE come one by
one (R188). -/
theorem run_steps_eq_runIfAnswered {s : State} (hI : s.Inv) {t : Nat} {c : Ctx} (hf : s.findCtx t = some c)
    (hp : c.phase = .wait) (a : Answer) (rest : List Event) :
    Sys2Proof.core.run 4 (s.withInbox (.move (.advance t) :: .move (.answer t a) :: .move (.advance t)
        :: .move (.advance t) :: rest))
      = .next ((s.withInbox (.move (.answer t a) :: rest)).runIfAnswered t) := by
  obtain ⟨d, hd, rfl⟩ := exists_ctx_advance_wait hf hp
  rw [run_advance, run_answer (hI.advance _) hd, run_advance, run_advance, run_zero, runIfAnswered_of_answer rfl]
  simp only [← advance_withInbox, ← exchangeAnswered_withInbox]
  rfl

/-- Settles O22: both READs are admitted in WAIT with the same context, and differ in the events to come alone. -/
theorem oneStepReadEqualsStepByStepRead : Obligations.OneStepReadEqualsStepByStepRead := by
  intro chip ch vref h link isOpen a rest s hI hch hv _ _ _
  have hadmissible : Admissible s (.read ⟨ch, chip, vref⟩) (commandFrame chip ch.toNat) :=
    ⟨by rintro _ ⟨⟩; exact ⟨hch, rfl⟩, by rintro _ ⟨⟩; exact hv, by rintro _ ⟨⟩⟩
  have hno : NoTicket s.nextTicket s.contexts := fun c hc => (hI.ticket_lt hc).ne
  have hf := findCtx_last (s.enqueue_contexts (.read ⟨ch, chip, vref⟩) (commandFrame chip ch.toNat) h true) hno rfl
  exact ⟨_, _, exec_read_legal hch hv h _, exec_read_legal hch hv h _,
    run_steps_eq_runIfAnswered (hI.enqueue h true hadmissible) hf rfl a rest⟩

end Sys2Proof.Machine
end

section
/-! # The session operations: CONFIGURE, SREAD, CLOSE (45_session_operations.md)

Support: what CONFIGURE and CLOSE do at their issue and where the transport answers them, as next states or refusals;
SREAD written as a READ; what a request on a released handle can come to. Then the statements of this family. -/

namespace Sys2Proof.Machine

/-! ## The transport answers a session operation in flight -/

/-- Where at most one entry passes a test, `find?` finds it. -/
theorem find?_eq_some_of_countP_le_one {α : Type} {p : α → Bool} {xs : List α} {x : α} (hx : x ∈ xs) (hp : p x = true)
    (hone : xs.countP p ≤ 1) : xs.find? p = some x := by
  obtain ⟨l, r, rfl⟩ := List.append_of_mem hx
  simp only [List.countP_append, List.countP_cons_of_pos hp] at hone
  have hl : l.countP p = 0 := by omega
  have hnone : l.find? p = none := List.find?_eq_none.2 (List.countP_eq_zero.1 hl)
  rw [List.find?_append, hnone, List.find?_cons_of_pos hp, Option.none_or]

theorem perform_answer_closing {s : State} {t : Nat} (hc : s.closing = some t) (a : Answer) :
    perform (.answer t a) s = s.closeAnswered t a := if_pos hc

/-- A ticket names one request, so the transport's answer to a CONFIGURE in flight reaches that CONFIGURE. -/
theorem State.Inv.perform_answer_opening {s : State} (hI : s.Inv) {o : Opening} (ho : o ∈ s.opening) (a : Answer) :
    perform (.answer o.ticket a) s = s.openAnswered o a := by
  have hone := hI.ticketsGood.le_one o.ticket
  have hpos := countP_key_pos (key := Opening.ticket) ho rfl
  simp only [State.ticketCount] at hone
  have hclosing : s.closing ≠ some o.ticket := by
    intro h
    simp only [h, Option.toList_some, List.count_singleton_self] at hone
    omega
  have hfind : s.opening.find? (fun p => decide (p.ticket = o.ticket)) = some o :=
    find?_eq_some_of_countP_le_one ho (decide_eq_true rfl) (by omega)
  simp only [perform, answerMove, hclosing, hfind, if_false]

/-! ## What the answer to Open does -/

theorem openAnswered_handle {s : State} (hs : s.session.sstate ≠ .opened) (hf : s.sreadInFlight = false) (o : Opening)
    (h : Handle) : s.openAnswered o (.handle h) = .next (s.opened o h) := by
  simp only [State.openAnswered, hs, hf, if_false, Bool.false_eq_true, State.opened]

theorem openAnswered_handle_opened {s : State} (hs : s.session.sstate = .opened) (o : Opening) (h : Handle) :
    s.openAnswered o (.handle h) = .refused .configureWhileOpen := by
  simp only [State.openAnswered, hs, if_true]

theorem openAnswered_handle_sreadInFlight {s : State} (hs : s.session.sstate ≠ .opened) (hf : s.sreadInFlight = true)
    (o : Opening) (h : Handle) : s.openAnswered o (.handle h) = .refused .sreadInFlight := by
  simp only [State.openAnswered, hs, hf, if_true, if_false]

/-! ## What the answer to Close does -/

theorem closeAnswered_ends {s : State} {r : Regs} {a : Answer} (hs : s.session = .opened r) (hf : s.sreadInFlight = false)
    (ha : a = .done ∨ a = .failed) (t : Nat) : s.closeAnswered t a = .next (s.endSession t r a) := by
  rcases ha with rfl | rfl <;> simp only [State.closeAnswered, hs, hf, Bool.false_eq_true, if_false]

theorem closeAnswered_sreadInFlight {s : State} {r : Regs} {a : Answer} (hs : s.session = .opened r)
    (hf : s.sreadInFlight = true) (ha : a = .done ∨ a = .failed) (t : Nat) :
    s.closeAnswered t a = .refused .sreadInFlight := by
  rcases ha with rfl | rfl <;> simp only [State.closeAnswered, hs, hf, if_true]

/-- The end of a session whose handle stands in the table: the handle is open no more, and keeps its link. -/
theorem endSession_eq {s : State} {r : Regs} {link : Link} (hl : s.linkOf r.handle = some link) (t : Nat) (a : Answer) :
    s.endSession t r a = { s with
      session := .closed r
      handles := putHandle r.handle ⟨link, false⟩ s.handles
      closing := none
      replies := s.replies ++ [(t, .ok .none)]
      trace := if Config.tracePresent && decide (a = .failed) then s.trace ++ [.closeFailed r.handle] else s.trace } := by
  have hrelease : State.releaseHandle r.handle { s with session := .closed r, closing := none }
      = { s with session := .closed r, closing := none, handles := putHandle r.handle ⟨link, false⟩ s.handles } := by
    simp only [State.releaseHandle, State.linkOf] at hl ⊢
    rw [hl]
  rw [State.endSession, hrelease]
  rfl

/-- R27: the handle of an OPEN session names the link of Open. -/
theorem State.Inv.linkOf_handle {s : State} (hI : s.Inv) {r : Regs} (hs : s.session = .opened r) :
    s.linkOf r.handle = some Config.ownLink := by
  have hgood := hI.sessionGood
  simp only [State.SessionGood, hs] at hgood
  exact linkOf_of_find hgood.2.2

/-! ## The issue of CONFIGURE -/

theorem chipOfField_chipField (chip : ChipModel) : chipOfField (chipField chip) = some chip := by
  cases chip <;> rfl

theorem exec_configure_opened {s : State} (hs : s.session.sstate = .opened) (chip : BitVec 2) (chDefault clockHz : Int)
    (vref : Option NumT) (mode : SpiMode) :
    exec (.configure chip chDefault clockHz vref mode) s = .refused .configureWhileOpen := by
  simp only [exec, execConfigure, hs, if_true]

theorem exec_configure_sreadInFlight {s : State} (hs : s.session.sstate ≠ .opened) (hf : s.sreadInFlight = true)
    (chip : BitVec 2) (chDefault clockHz : Int) (vref : Option NumT) (mode : SpiMode) :
    exec (.configure chip chDefault clockHz vref mode) s = .refused .sreadInFlight := by
  simp only [exec, execConfigure, hs, hf, if_true, if_false]

/-- CONFIGURE of legal operands calls Open (R200). -/
theorem exec_configure_legal {s : State} (hs : s.session.sstate ≠ .opened) (hf : s.sreadInFlight = false) {vref : Option NumT}
    {clockHz : Int} (hv : 0 < vref.getD 5) (hz : 0 < clockHz) (chip : ChipModel) (chDefault : Int) (mode : SpiMode) :
    exec (.configure (chipField chip) chDefault clockHz vref mode) s
      = (s.startOpen ⟨s.nextTicket, chip, vref.getD 5, chDefault, clockHz, mode⟩).openIfAnswered
          ⟨s.nextTicket, chip, vref.getD 5, chDefault, clockHz, mode⟩ := by
  have hv' : ¬ configVref vref ≤ 0 := not_le.2 hv
  simp only [exec, execConfigure, hs, hf, chipOfField_chipField, hv', not_le.2 hz, if_false, Bool.false_eq_true]
  rfl

theorem openIfAnswered_of_answer {s : State} {o : Opening} {a : Answer} {rest : List Event}
    (hi : s.inbox = .move (.answer o.ticket a) :: rest) : s.openIfAnswered o = (s.withInbox rest).openAnswered o a := by
  simp only [State.openIfAnswered, hi, if_true, State.withInbox]

/-- If the answer to Open is the next event, CONFIGURE goes on with it in the same step. -/
theorem exec_configure_answered {s : State} (hs : s.session.sstate ≠ .opened) (hf : s.sreadInFlight = false)
    {vref : Option NumT} {clockHz : Int} (hv : 0 < vref.getD 5) (hz : 0 < clockHz) {a : Answer} {rest : List Event}
    (hi : s.inbox = .move (.answer s.nextTicket a) :: rest) (chip : ChipModel) (chDefault : Int) (mode : SpiMode) :
    exec (.configure (chipField chip) chDefault clockHz vref mode) s
      = ((s.startOpen ⟨s.nextTicket, chip, vref.getD 5, chDefault, clockHz, mode⟩).withInbox rest).openAnswered
          ⟨s.nextTicket, chip, vref.getD 5, chDefault, clockHz, mode⟩ a := by
  rw [exec_configure_legal hs hf hv hz]
  exact openIfAnswered_of_answer hi

/-- A CONFIGURE that is answered in its own step leaves nothing in flight: only the ticket and the call tell of it. -/
theorem endOpening_startOpen {s : State} (hfresh : s.Fresh) {o : Opening} (ho : o.ticket = s.nextTicket) :
    (s.startOpen o).endOpening o.ticket
      = (s.logCall (.open Config.linkBusId Config.linkDeviceId o.clockHz o.spiMode)).nextRequest := by
  have hkeep : s.opening.filter (fun p => decide (p.ticket ≠ o.ticket)) = s.opening :=
    List.filter_eq_self.2 fun p hp => decide_eq_true (ho ▸ (hfresh.2 p hp).ne)
  have hopening : (s.opening ++ [o]).filter (fun p => decide (p.ticket ≠ o.ticket)) = s.opening := by
    rw [List.filter_append, hkeep]
    simp
  simp only [State.endOpening, State.startOpen_opening, hopening]
  rfl

/-- The same with the events `rest` to come. -/
theorem endOpening_startOpen_withInbox {s : State} (hfresh : s.Fresh) {o : Opening} (ho : o.ticket = s.nextTicket)
    (rest : List Event) :
    ((s.startOpen o).withInbox rest).endOpening o.ticket
      = (s.logCall (.open Config.linkBusId Config.linkDeviceId o.clockHz o.spiMode)).nextRequest.withInbox rest :=
  congrArg (State.withInbox rest) (endOpening_startOpen hfresh ho)

/-- Settles O24: the issue calls Open, and a handle that answers it, at once or later, writes the registers. -/
theorem configureOpensTheSession : Obligations.ConfigureOpensTheSession := by
  refine ⟨fun chip chDefault clockHz vref mode s hfresh hs hf hv hz => ?_, fun s o h hI ho hs hf => ?_⟩
  · refine ⟨fun h rest hi => ?_, fun hno => ?_⟩
    · rw [exec_configure_answered hs hf hv hz hi, openAnswered_handle (s := (s.startOpen _).withInbox rest) hs hf,
        State.opened, endOpening_startOpen_withInbox hfresh rfl]
      rfl
    · rw [exec_configure_legal hs hf hv hz]
      exact openIfAnswered_waits hno
  · rw [hI.perform_answer_opening ho, openAnswered_handle hs hf]
    rfl

/-- Settles O26: Failed ends the CONFIGURE, at once or later, and touches nothing else. -/
theorem failedOpenLeavesTheSlot : Obligations.FailedOpenLeavesTheSlot := by
  refine ⟨fun chip chDefault clockHz vref mode rest s hfresh hs hf hv hz hi => ?_, fun s o hI ho => ?_⟩
  · rw [exec_configure_answered hs hf hv hz hi, State.openAnswered, endOpening_startOpen_withInbox hfresh rfl]
    rfl
  · exact hI.perform_answer_opening ho .failed

/-- A CONFIGURE with a mandatory operand left out has no arm in the decoder (R196). -/
theorem decodeHostop_configure_absent {chip chDefault clockHz vref mode : Operand}
    (h : chip = .absent ∨ chDefault = .absent ∨ clockHz = .absent ∨ mode = .absent) :
    decodeHostop 0b000#3 [chip, chDefault, clockHz, vref, mode] = .error .operandShape := by
  unfold decodeHostop
  split
  case h_1 heq | h_2 heq =>
    cases heq
    simp at h
  case h_11 => rfl
  all_goals contradiction

/-- Settles O27: VREF_DEFAULT is 5, and the decoder's two arms for CONFIGURE take no other absent operand. -/
theorem configureDefaultsToFiveVolts : Obligations.ConfigureDefaultsToFiveVolts :=
  ⟨fun _ _ _ _ _ => rfl, fun _ _ _ _ _ h => decodeHostop_configure_absent h⟩

/-! ## The issue of CLOSE -/

theorem exec_close_unconfigured {s : State} (hs : s.session = .unconfigured) : exec .close s = .refused .noSession := by
  simp only [exec, execClose, hs]

theorem exec_close_closed {s : State} {r : Regs} (hs : s.session = .closed r) :
    exec .close s = .next (s.replied (.ok .none)) := by
  simp only [exec, execClose, hs, State.replyNow_eq_replied]

theorem exec_close_sreadInFlight {s : State} {r : Regs} (hs : s.session = .opened r) (hf : s.sreadInFlight = true) :
    exec .close s = .refused .sreadInFlight := by
  simp only [exec, execClose, hs, hf, if_true]

theorem exec_close_closing {s : State} {r : Regs} (hs : s.session = .opened r) (hf : s.sreadInFlight = false)
    (hc : s.closing ≠ none) : exec .close s = .refused .closeInFlight := by
  simp only [exec, execClose, hs, hf, Option.isSome_iff_ne_none.2 hc, Bool.false_eq_true, if_true, if_false]

/-- CLOSE on an OPEN session calls Close (R209). -/
theorem exec_close_opened {s : State} {r : Regs} (hs : s.session = .opened r) (hf : s.sreadInFlight = false)
    (hc : s.closing = none) : exec .close s = (s.startClose r).closeIfAnswered s.nextTicket := by
  simp only [exec, execClose, hs, hf, hc, Option.isSome_none, Bool.false_eq_true, if_false]

theorem closeIfAnswered_of_answer {s : State} {t : Nat} {a : Answer} {rest : List Event}
    (hi : s.inbox = .move (.answer t a) :: rest) : s.closeIfAnswered t = (s.withInbox rest).closeAnswered t a := by
  simp only [State.closeIfAnswered, hi, if_true, State.withInbox]

/-- Settles O34: the issue calls Close, and Done or Failed, at once or later, ends the session alike. -/
theorem closeReleasesTheHandle : Obligations.CloseReleasesTheHandle := by
  refine fun r s hI hs hf => ⟨fun hc => ?_, fun t a hc ha => ?_⟩
  · rw [exec_close_opened hs hf hc]
    refine ⟨fun a rest ha hi => ?_, fun hno => closeIfAnswered_waits hno⟩
    have hlink : ((s.startClose r).withInbox rest).linkOf r.handle = some Config.ownLink := hI.linkOf_handle hs
    rw [closeIfAnswered_of_answer (s := s.startClose r) hi,
      closeAnswered_ends (s := (s.startClose r).withInbox rest) hs hf ha, endSession_eq hlink, hc]
    rfl
  · rw [perform_answer_closing hc, closeAnswered_ends hs hf ha, endSession_eq (hI.linkOf_handle hs)]

/-- Settles O35: in CLOSED the reply is all that CLOSE does. -/
theorem secondCloseDoesNothing : Obligations.SecondCloseDoesNothing := fun _ _ hs => exec_close_closed hs

theorem exec_sread_unconfigured {s : State} (hs : s.session = .unconfigured) (ch : Option Int) :
    exec (.sread ch) s = .refused .noSession := by
  simp only [exec, execSread, hs]

/-- Settles O28: one refusal for each condition, at the issue and where the transport answers. -/
theorem lifeCycleRefusals : Obligations.LifeCycleRefusals := by
  refine fun chip chDefault clockHz vref mode ch r s =>
    ⟨fun hs => exec_configure_opened (by rw [hs]; rfl) chip chDefault clockHz vref mode,
      fun hs hf => exec_configure_sreadInFlight hs hf chip chDefault clockHz vref mode, exec_close_sreadInFlight,
      fun hs => ⟨exec_sread_unconfigured hs ch, exec_close_unconfigured hs⟩, exec_close_closing,
      fun o h hI ho => ?_, fun t a hs hc hf ha => ?_⟩
  · rw [hI.perform_answer_opening ho]
    exact ⟨fun hs => openAnswered_handle_opened (by rw [hs]; rfl) o h,
      fun hs hf => openAnswered_handle_sreadInFlight hs hf o h⟩
  · rw [perform_answer_closing hc]
    exact closeAnswered_sreadInFlight hs hf ha t

/-! ## The slot while an SREAD is in flight -/

theorem exec_session_of_sreadInFlight {i : Instr} {s s' : State} (hf : s.sreadInFlight = true) (h : exec i s = .next s') :
    s'.session = s.session := by
  by_cases hclose : i = .close
  · subst hclose
    cases hs : s.session with
    | unconfigured => rw [exec_close_unconfigured hs] at h; cases h
    | opened r => rw [exec_close_sreadInFlight hs hf] at h; cases h
    | closed r => rw [exec_close_closed hs] at h; cases h; exact hs
  · refine (exec_sameSlot h ?_ hclose).session_eq
    rintro chip chDefault clockHz vref mode rfl
    by_cases hs : s.session.sstate = .opened
    · rw [exec_configure_opened hs] at h
      cases h
    · rw [exec_configure_sreadInFlight hs hf] at h
      cases h

theorem openAnswered_session_of_sreadInFlight {s s' : State} {o : Opening} {a : Answer} (hf : s.sreadInFlight = true)
    (h : s.openAnswered o a = .next s') : s'.session = s.session := by
  cases a with
  | handle hd =>
    by_cases hs : s.session.sstate = .opened
    · rw [openAnswered_handle_opened hs] at h
      cases h
    · rw [openAnswered_handle_sreadInFlight hs hf] at h
      cases h
  | failed | bytes _ | done => exact Host.Outcome.next.inj h ▸ rfl

theorem closeAnswered_session_of_sreadInFlight {s s' : State} {t : Nat} {a : Answer} (hf : s.sreadInFlight = true)
    (h : s.closeAnswered t a = .next s') : s'.session = s.session := by
  cases hs : s.session with
  | unconfigured | closed r =>
    simp only [State.closeAnswered, hs, Host.Outcome.next.injEq] at h
    rw [← h, hs]
  | opened r =>
    cases a with
    | done | failed =>
      rw [closeAnswered_sreadInFlight hs hf (by simp)] at h
      cases h
    | bytes _ | handle _ =>
      simp only [State.closeAnswered, hs, Host.Outcome.next.injEq] at h
      rw [← h, hs]

theorem answerMove_session_of_sreadInFlight {s s' : State} {t : Nat} {a : Answer} (hf : s.sreadInFlight = true)
    (h : answerMove t a s = .next s') : s'.session = s.session := by
  unfold answerMove at h
  split at h
  · exact closeAnswered_session_of_sreadInFlight hf h
  · split at h
    · exact openAnswered_session_of_sreadInFlight hf h
    · exact Host.Outcome.next.inj h ▸ (State.SameSlot.exchangeAnswered s t a).session_eq

theorem perform_session_of_sreadInFlight {m : Move} {s s' : State} (hf : s.sreadInFlight = true)
    (h : perform m s = .next s') : s'.session = s.session := by
  cases m with
  | advance t => exact Host.Outcome.next.inj h ▸ (State.SameSlot.advance s t).session_eq
  | answer t a => exact answerMove_session_of_sreadInFlight hf h
  | outsideOpen | outsideTake | outsideFree =>
    simp only [perform, outsideOpenMove, outsideTakeMove, outsideFreeMove] at h
    split at h <;> exact Host.Outcome.next.inj h ▸ rfl
  | outsideClose hd =>
    simp only [perform, outsideCloseMove] at h
    split at h <;> cases h
    · rfl
    · exact s.releaseHandle_session hd

/-- Settles O46: CONFIGURE and CLOSE are refused where they would write the slot, and nothing else writes it. -/
theorem slotDoesNotChangeUnderAnSread : Obligations.SlotDoesNotChangeUnderAnSread := by
  intro s s' hf h
  cases hi : s.inbox with
  | nil =>
    rw [step_idle hi] at h
    rw [Host.Outcome.next.inj h]
  | cons e rest =>
    cases e with
    | request w =>
      rw [step_request hi] at h
      cases hd : decode w with
      | error why =>
        rw [issue_error hd] at h
        cases h
      | ok i =>
        rw [issue_ok hd] at h
        exact exec_session_of_sreadInFlight (s := s.withInbox rest) hf h
    | move m =>
      simp only [step, hi] at h
      exact perform_session_of_sreadInFlight (s := s.withInbox rest) hf h

/-! ## SREAD -/

theorem startRead_illegal {v : ReadVals} (hv : ¬ channelLegal v.chip v.ch) (origin : Origin) (h : Handle) (usable : Bool)
    (s : State) : s.startRead origin v h usable = s.replied (.fail (.invalidChannel v.ch v.chip)) := by
  simp only [State.startRead, encodeUnit_illegal hv, State.replyNow_eq_replied]

theorem exec_sread_startRead_opened {r : Regs} {s : State} (hs : s.session = .opened r) (ch : Option Int) :
    exec (.sread ch) s = .next (s.startRead (.sread ⟨ch.getD r.chDefault, r.chip, r.vref⟩)
      ⟨ch.getD r.chDefault, r.chip, r.vref⟩ r.handle true) := by
  simp only [exec, execSread, hs, sreadChannel]

theorem exec_sread_startRead_closed {r : Regs} {s : State} (hs : s.session = .closed r) (ch : Option Int) :
    exec (.sread ch) s = .next (s.startRead (.sread ⟨ch.getD r.chDefault, r.chip, r.vref⟩)
      ⟨ch.getD r.chDefault, r.chip, r.vref⟩ r.handle false) := by
  simp only [exec, execSread, hs, sreadChannel]

/-- Settles O29: on the open handle of the session the exchange hears the answer itself. -/
theorem sreadReadsWithTheSessionsValues : Obligations.SreadReadsWithTheSessionsValues := by
  intro ch r link a rest s hfresh hs hch hfind hbusy ha hi
  have hlink : s.linkOf r.handle = some link := linkOf_of_find hfind
  have hopen : s.isOpen r.handle = true := isOpen_of_find hfind
  have hfree : s.linkBusy (s.linkOf r.handle) = false := by simpa [hlink] using hbusy
  have hheard : exchangeHears (true && s.isOpen r.handle) a = some a := by
    simpa [hopen] using exchangeHears_ofExchange ha true
  have hstart := startExchange_reads (origin := .sread ⟨ch.getD r.chDefault, r.chip, r.vref⟩) rfl hfresh hfree hi hheard
    (commandFrame r.chip (ch.getD r.chDefault).toNat)
  rw [hlink, hopen] at hstart
  rw [exec_sread_opened hs hch, hstart]
  rfl

/-- Settles O31: BUILD fails before the handle is looked at. -/
theorem sreadReportsABadChannel : Obligations.SreadReportsABadChannel := by
  rintro ch r s (hs | hs) hch
  · rw [exec_sread_startRead_opened hs, startRead_illegal hch]
  · rw [exec_sread_startRead_closed hs, startRead_illegal hch]

/-- Settles O32: a request that is not usable hears Failed, whether its handle is open again or not. -/
theorem sreadAfterCloseFails : Obligations.SreadAfterCloseFails := by
  intro ch r a rest s hfresh hs hch hbusy ha hi
  have hfree : s.linkBusy (s.linkOf r.handle) = false := by
    cases hlink : s.linkOf r.handle with
    | none => rfl
    | some l => simpa using hbusy l hlink
  have hheard : exchangeHears (false && s.isOpen r.handle) a = some .failed := exchangeHears_ofExchange ha false
  rw [exec_sread_closed hs hch, startExchange_ends hfresh hfree hi hheard (.inr fun bs hok => by cases hok), Bool.false_and,
    sentFrames_dead]
  rfl

/-! ## SREAD written as READ -/

section

variable (c : Ctx)

@[simp] theorem Ctx.asRead_ticket : c.asRead.ticket = c.ticket := by unfold Ctx.asRead; split <;> rfl
@[simp] theorem Ctx.asRead_cmd : c.asRead.cmd = c.cmd := by unfold Ctx.asRead; split <;> rfl
@[simp] theorem Ctx.asRead_handle : c.asRead.handle = c.handle := by unfold Ctx.asRead; split <;> rfl
@[simp] theorem Ctx.asRead_usable : c.asRead.usable = c.usable := by unfold Ctx.asRead; split <;> rfl
@[simp] theorem Ctx.asRead_phase : c.asRead.phase = c.phase := by unfold Ctx.asRead; split <;> rfl

@[simp] theorem Ctx.asRead_vals : c.asRead.origin.vals = c.origin.vals := by
  unfold Ctx.asRead
  split <;> simp [*, Origin.vals]

theorem Ctx.asRead_withPhase (p : Phase) : Ctx.asRead { c with phase := p } = { c.asRead with phase := p } := by
  simp only [Ctx.asRead]
  split <;> rfl

theorem Ctx.asRead_origin_eq_xfer : c.asRead.origin = .xfer ↔ c.origin = .xfer := by
  unfold Ctx.asRead
  split <;> simp [*]

end

/-- `s` with every SREAD in flight written as the READ it is (30_encoding.md R99). -/
def State.asRead (s : State) : State := { s with contexts := s.contexts.map Ctx.asRead }

theorem setPhase_map_asRead (t : Nat) (p : Phase) (cs : List Ctx) :
    setPhase t p (cs.map Ctx.asRead) = (setPhase t p cs).map Ctx.asRead := by
  simp only [setPhase, List.map_map]
  refine List.map_congr_left fun c _ => ?_
  by_cases hc : c.ticket = t
  · simp only [Function.comp_apply, Ctx.asRead_ticket, if_pos hc, Ctx.asRead_withPhase]
  · simp only [Function.comp_apply, Ctx.asRead_ticket, if_neg hc]

theorem dropCtx_map_asRead (t : Nat) (cs : List Ctx) : dropCtx t (cs.map Ctx.asRead) = (dropCtx t cs).map Ctx.asRead := by
  simp only [dropCtx, List.filter_map, Function.comp_def, Ctx.asRead_ticket]

namespace State

variable (s : State)

theorem findCtx_asRead (t : Nat) : s.asRead.findCtx t = (s.findCtx t).map Ctx.asRead := by
  simp only [findCtx, asRead, List.find?_map, Function.comp_def, Ctx.asRead_ticket]

theorem moveTo_asRead (t : Nat) (p : Phase) : s.asRead.moveTo t p = (s.moveTo t p).asRead := by
  simp only [moveTo, asRead, setPhase_map_asRead]

theorem finish_asRead (t : Nat) (r : Reply) : s.asRead.finish t r = (s.finish t r).asRead := by
  simp only [finish, deliver, asRead, dropCtx_map_asRead]

theorem callExchange_asRead (c : Ctx) (link : Option Link) (live : Bool) :
    s.asRead.callExchange c.asRead link live = (s.callExchange c link live).asRead := by
  cases link <;>
    simp only [callExchange, lockLink, asRead, setPhase_map_asRead, Ctx.asRead_ticket, Ctx.asRead_cmd, Ctx.asRead_handle]

theorem acquire_asRead (c : Ctx) : s.asRead.acquire c.asRead = (s.acquire c).asRead := by
  have hlink (h : Handle) : s.asRead.linkOf h = s.linkOf h := rfl
  have hbusy (link : Option Link) : s.asRead.linkBusy link = s.linkBusy link := rfl
  have hopen (h : Handle) : s.asRead.isOpen h = s.isOpen h := rfl
  simp only [acquire, Ctx.asRead_handle, Ctx.asRead_usable, hlink, hbusy, hopen, callExchange_asRead]
  split <;> rfl

theorem advance_asRead (t : Nat) : s.asRead.advance t = (s.advance t).asRead := by
  simp only [advance, findCtx_asRead]
  cases s.findCtx t with
  | none => rfl
  | some c =>
    simp only [Option.map_some, Ctx.asRead_phase]
    cases c.phase with
    | wait => exact s.acquire_asRead c
    | exch _ _ => rfl
    | decode rsp =>
      dsimp only
      cases decodeUnit rsp with
      | error f => exact s.finish_asRead t _
      | ok code => exact s.moveTo_asRead t _
    | scale code =>
      simp only [Ctx.asRead_vals]
      cases c.origin.vals with
      | some v => exact s.finish_asRead t _
      | none => rfl

theorem released_asRead (link : Option Link) (heard : Answer) :
    (s.asRead.unlockLink link).traceExchange link heard = ((s.unlockLink link).traceExchange link heard).asRead := by
  cases link <;> rfl

theorem received_asRead (c : Ctx) (bs : List Byte) : s.asRead.received c.asRead bs = (s.received c bs).asRead := by
  by_cases ho : c.origin = .xfer
  · rw [received_xfer ho, received_xfer (c.asRead_origin_eq_xfer.2 ho), Ctx.asRead_ticket, finish_asRead]
  · rw [received_reading ho, received_reading (mt c.asRead_origin_eq_xfer.1 ho), Ctx.asRead_ticket, moveTo_asRead]

theorem exchangeAnswered_asRead (t : Nat) (a : Answer) : s.asRead.exchangeAnswered t a = (s.exchangeAnswered t a).asRead := by
  simp only [exchangeAnswered, findCtx_asRead]
  cases s.findCtx t with
  | none => rfl
  | some c =>
    simp only [Option.map_some, Ctx.asRead_phase]
    cases c.phase with
    | wait | decode _ | scale _ => rfl
    | exch link live =>
      simp only [released_asRead]
      cases exchangeHears live a with
      | none => rfl
      | some heard =>
        dsimp only
        cases acceptAnswer heard with
        | error f => exact finish_asRead _ t _
        | ok bs => exact received_asRead _ c bs

/-- No step of a request tells a READ from an SREAD. -/
theorem runIfAnswered_asRead (t : Nat) : s.asRead.runIfAnswered t = (s.runIfAnswered t).asRead := by
  by_cases hans : ∃ a rest, s.inbox = .move (.answer t a) :: rest
  · obtain ⟨a, rest, hi⟩ := hans
    rw [runIfAnswered_of_answer hi, runIfAnswered_of_answer (s := s.asRead) hi]
    simp only [← advance_asRead, ← exchangeAnswered_asRead]
    rfl
  · have hno (a : Answer) (rest : List Event) : s.inbox ≠ .move (.answer t a) :: rest := fun hi => hans ⟨a, rest, hi⟩
    rw [runIfAnswered_waits hno, runIfAnswered_waits (s := s.asRead) hno]

theorem enqueue_asRead (v : ReadVals) (cmd : Frame) (h : Handle) (usable : Bool) :
    (s.enqueue (.sread v) cmd h usable).asRead = (s.enqueue (.read v) cmd h usable).asRead := by
  simp [asRead, enqueue, nextRequest, Ctx.asRead]

theorem startRead_asRead (v : ReadVals) (h : Handle) (usable : Bool) :
    (s.startRead (.sread v) v h usable).asRead = (s.startRead (.read v) v h usable).asRead := by
  rcases encodeUnit_cases v.chip v.ch with ⟨hl, -⟩ | ⟨hl, -⟩
  · simp only [startRead_legal hl, startExchange, ← runIfAnswered_asRead, enqueue_asRead]
  · rw [startRead_illegal hl, startRead_illegal hl]

/-- Two states that are one when SREAD is written as READ differ in their contexts alone. -/
theorem eq_withContexts_of_asRead_eq {s u : State} (h : s.asRead = u.asRead) :
    s = { u with contexts := s.contexts } ∧ s.contexts.map Ctx.asRead = u.contexts.map Ctx.asRead := by
  refine ⟨?_, congrArg State.contexts h⟩
  cases s
  cases u
  simp only [asRead, State.mk.injEq] at h ⊢
  tauto

end State

/-- Settles O30: both are the same reading request but for the name of its context. -/
theorem sreadBehavesAsRead : Obligations.SreadBehavesAsRead := by
  intro ch r s hI hs
  obtain ⟨hv, -⟩ := hI.sessionGood.regs (.inl hs)
  have hread : exec (.read r.chip (ch.getD r.chDefault) r.vref r.handle) s
      = .next (s.startRead (.read ⟨ch.getD r.chDefault, r.chip, r.vref⟩)
        ⟨ch.getD r.chDefault, r.chip, r.vref⟩ r.handle true) := if_neg (not_le.2 hv)
  exact ⟨_, _, exec_sread_startRead_opened hs ch, hread, State.eq_withContexts_of_asRead_eq (s.startRead_asRead _ _ _)⟩

/-! ## A request on a released handle -/

/-- The exchange of a request that is not usable hears Failed. -/
theorem Ctx.Good.hears_failed {c : Ctx} (hgood : c.Good) (hu : c.usable = false) {link : Option Link} {live : Bool}
    (hp : c.phase = .exch link live) {a heard : Answer} (hh : exchangeHears live a = some heard) : heard = .failed := by
  rcases exchangeHears_some hh with hfailed | ⟨hlive, -⟩
  · exact hfailed
  · exact absurd (hgood.exch link live hp hlive) (by simp [hu])

/-- Request `t` is in flight and not usable, or has failed with exchange_failed (R204). -/
def State.Unreadable (t : Nat) (s : State) : Prop :=
  (∃ d ∈ s.contexts, d.ticket = t ∧ d.usable = false) ∨ (t, .fail (.transportError .exchangeFailed)) ∈ s.replies

namespace State.Unreadable

variable {t : Nat} {s : State}

theorem keep (h : s.Unreadable t) {s' : State} (hc : ∀ d ∈ s.contexts, d ∈ s'.contexts)
    (hr : ∀ x ∈ s.replies, x ∈ s'.replies) : s'.Unreadable t :=
  h.imp (fun ⟨d, hd, hdt⟩ => ⟨d, hc d hd, hdt⟩) (hr _)

theorem moveOn (h : s.Unreadable t) {s' : State} {u : Nat} {p : Phase} (hc : s'.contexts = setPhase u p s.contexts)
    (hr : s'.replies = s.replies) : s'.Unreadable t := by
  rcases h with ⟨d, hd, hdt⟩ | h
  · refine .inl ?_
    rw [hc]
    by_cases hu : d.ticket = u
    · exact ⟨_, mem_setPhase_same hd hu p, hdt⟩
    · exact ⟨d, (mem_setPhase_other hu).2 hd, hdt⟩
  · exact .inr (hr ▸ h)

/-- Where a request that is not usable ends, it ends with exchange_failed. -/
theorem finish (h : s.Unreadable t) (hI : s.Inv) {s' : State} {u : Nat} {e : Ctx} {r : Reply} (hf : s.findCtx u = some e)
    (hfail : e.usable = false → r = .fail (.transportError .exchangeFailed)) (hc : s'.contexts = dropCtx u s.contexts)
    (hr : s'.replies = s.replies ++ [(u, r)]) : s'.Unreadable t := by
  rcases h with ⟨d, hd, rfl, hd'⟩ | h
  · by_cases hu : d.ticket = u
    · obtain ⟨he, het⟩ := findCtx_some hf
      obtain rfl := hI.ctx_unique he hd (hu.trans het.symm)
      exact .inr (by rw [hr, hfail hd', hu]; simp)
    · exact .inl ⟨d, hc ▸ mem_dropCtx.2 ⟨hd, hu⟩, rfl, hd'⟩
  · exact .inr (hr ▸ List.mem_append_left _ h)

theorem advance (h : s.Unreadable t) (hI : s.Inv) (u : Nat) : (s.advance u).Unreadable t := by
  rcases advance_cases s u with he | ⟨d, hf, -, -, he⟩ | ⟨d, rsp, code, -, -, -, he⟩ | ⟨d, rsp, f, hf, hp, -, he⟩ |
      ⟨d, code, v, hf, hp, -, he⟩ <;> rw [he]
  · exact h
  · exact h.moveOn (State.callExchange_contexts s d _ _) (State.callExchange_replies s d _ _)
  · exact h.moveOn rfl rfl
  · obtain ⟨-, -, hu⟩ := (hI.contexts d (findCtx_some hf).1).decode rsp hp
    exact h.finish hI hf (fun hno => absurd hu (by simp [hno])) rfl rfl
  · obtain ⟨-, hu⟩ := (hI.contexts d (findCtx_some hf).1).scale code hp
    exact h.finish hI hf (fun hno => absurd hu (by simp [hno])) rfl rfl

theorem exchangeAnswered (h : s.Unreadable t) (hI : s.Inv) (u : Nat) (a : Answer) :
    (s.exchangeAnswered u a).Unreadable t := by
  rcases exchangeAnswered_cases s u a with he | ⟨d, link, live, heard, hf, hp, hh, hcases⟩
  · rwa [he]
  have hfailed (hu : d.usable = false) : heard = .failed := (hI.contexts d (findCtx_some hf).1).hears_failed hu hp hh
  rcases hcases with ⟨cause, hacc, he⟩ | ⟨bs, hacc, -, he⟩ | ⟨bs, -, -, he⟩ <;> rw [he]
  · refine h.finish (r := .fail (.transportError cause)) hI hf (fun hu => ?_) (by simp) (by simp)
    rw [hfailed hu] at hacc
    cases hacc
    rfl
  · refine h.finish (r := .ok (.response bs)) hI hf (fun hu => ?_) (by simp) (by simp)
    rw [hfailed hu] at hacc
    cases hacc
  · exact h.moveOn (u := u) (p := .decode bs) (by simp) (by simp)

end State.Unreadable

/-- The invariant is needed beside it: a ticket names one context, and one that is not usable gets no answer but Failed. -/
theorem unreadable_keptByUpdates (t : Nat) : KeptByUpdates fun s => s.Inv ∧ s.Unreadable t where
  consume _ _ rest _ h := ⟨h.1.withInbox rest, h.2⟩
  replyNow _ r h := ⟨h.1.replyNow r, h.2.keep (fun _ => id) fun _ => List.mem_append_left _⟩
  enqueue _ _ _ hd usable ha h := ⟨h.1.enqueue hd usable ha, h.2.keep (fun _ => List.mem_append_left _) fun _ => id⟩
  advance _ u h := ⟨h.1.advance u, h.2.advance h.1 u⟩
  exchangeAnswered s u a rest _ h :=
    have hI := h.1.withInbox rest
    ⟨hI.exchangeAnswered u a, State.Unreadable.exchangeAnswered (s := s.withInbox rest) h.2 hI u a⟩
  startOpen _ _ ht hv hz h := ⟨h.1.startOpen ht hv hz, h.2⟩
  opened _ _ hd ho _ _ h := ⟨h.1.opened hd ho, h.2.keep (fun _ => id) fun _ => List.mem_append_left _⟩
  openFailed _ _ ho h := ⟨h.1.openFailed ho _, h.2.keep (fun _ => id) fun _ => List.mem_append_left _⟩
  startClose _ _ hs hc _ h := ⟨h.1.startClose hs hc, h.2⟩
  endSession _ _ _ a hs hc _ h :=
    ⟨h.1.endSession a hs hc, h.2.keep (by simp) fun _ hx => by simpa using .inl hx⟩
  outsideOpen _ _ l ho h := ⟨h.1.openHandle l ho, h.2⟩
  outsideClose _ _ ho h := ⟨h.1.releaseHandle ho, h.2.keep (by simp) (by simp)⟩
  outsideTake _ _ hl h := ⟨h.1.outsideTake hl, h.2⟩
  outsideFree _ _ hl h := ⟨h.1.outsideFree hl, h.2⟩

/-- A request that is in flight has no reply. -/
theorem State.Inv.not_mem_replies {s : State} (hI : s.Inv) {d : Ctx} (hd : d ∈ s.contexts) (r : Reply) :
    (d.ticket, r) ∉ s.replies := by
  intro hr
  have hone := hI.ticketsGood.le_one d.ticket
  have hctx := countP_key_pos (key := Ctx.ticket) hd rfl
  have hreply := countP_key_pos (key := Prod.fst) (t := d.ticket) hr rfl
  simp only [State.ticketCount] at hone
  omega

/-- A request has one reply. -/
theorem State.Inv.reply_unique {s : State} (hI : s.Inv) {t : Nat} {r r' : Reply} (hr : (t, r) ∈ s.replies)
    (hr' : (t, r') ∈ s.replies) : r = r' := by
  have hone := hI.ticketsGood.le_one t
  simp only [State.ticketCount] at hone
  have hle : s.replies.countP (fun x => decide (x.1 = t)) ≤ 1 := by omega
  have hfind := find?_eq_some_of_countP_le_one hr (decide_eq_true rfl) hle
  have hfind' := find?_eq_some_of_countP_le_one hr' (decide_eq_true rfl) hle
  exact congrArg Prod.snd (Option.some.inj (hfind.symm.trans hfind'))

/-- Settles O33: after the step the request is in flight and has no reply, or exchange_failed is its one reply. -/
theorem noReadingAfterClose : Obligations.NoReadingAfterClose := by
  intro s s' c r hI h hc hu hr
  obtain ⟨hI', ⟨d, hd, hdt, -⟩ | hfail⟩ :=
    (unreadable_keptByUpdates c.ticket).step ⟨hI, .inl ⟨c, hc, rfl, hu⟩⟩ h
  · exact absurd (hdt ▸ hr) (hI'.not_mem_replies hd r)
  · exact hI'.reply_unique hr hfail

end Sys2Proof.Machine
end

section
/-! # Exceptions: the failures and their delivery (60_exceptions.md)

Support: the order of CONFIGURE's checks; what a step adds to the logs, which does not depend on what stands there; how
CONFIGURE and CLOSE can go on; which replies a request may end with. Then the statements of this family. -/

namespace Sys2Proof.Machine

/-! ## One holder of a link, one reply to a request -/

theorem State.LocksGood.holders_le_one {s : State} (h : s.LocksGood) (l : Link) : s.holders l ≤ 1 := by
  by_cases hl : l ∈ s.busy
  · exact ((h l).1 hl).le
  · exact ((h l).2 hl).trans_le (Nat.zero_le 1)

theorem State.LocksGood.mem_busy_iff {s : State} (h : s.LocksGood) (l : Link) : l ∈ s.busy ↔ 0 < s.holders l := by
  by_cases hl : l ∈ s.busy
  · simp [hl, (h l).1 hl]
  · simp [hl, (h l).2 hl]

/-- Settles O43: a link has at most one holder, a context in EXCH or another user, and BUSY says that it has one. -/
theorem exchangesOnOneLinkNeverOverlap : Obligations.ExchangesOnOneLinkNeverOverlap := by
  intro events s l hreach
  have hone := hreach.inv.locksGood.holders_le_one l
  rw [hreach.inv.locksGood.mem_busy_iff, ← List.count_pos_iff (l := s.outside)]
  simp only [State.holders] at hone ⊢
  omega

/-- No context, CONFIGURE or CLOSE in flight has the ticket. -/
theorem State.notInFlight_iff (s : State) (t : Nat) :
    ((∀ c ∈ s.contexts, c.ticket ≠ t) ∧ (∀ o ∈ s.opening, o.ticket ≠ t) ∧ s.closing ≠ some t) ↔
      s.contexts.countP (fun c => decide (c.ticket = t)) + s.opening.countP (fun o => decide (o.ticket = t))
        + s.closing.toList.count t = 0 := by
  simp only [Nat.add_eq_zero_iff, List.countP_eq_zero, List.count_eq_zero, Option.mem_toList,
    decide_eq_true_eq, and_assoc, ne_eq]

/-- Settles O52: the ticket of an accepted request counts once, among the requests in flight or among the replies. -/
theorem everyRequestHasAtMostOneReply : Obligations.EveryRequestHasAtMostOneReply := by
  intro events s t hreach
  have hle := hreach.inv.ticketsGood.le_one t
  have hone := (hreach.inv.tickets t).1
  rw [s.notInFlight_iff]
  simp only [State.ticketCount] at hle hone
  omega

/-! ## The checks that come before the transport -/

theorem exec_read_startRead {chip : ChipModel} {ch : Int} {vref : NumT} (hv : 0 < vref) (h : Handle) (s : State) :
    exec (.read chip ch vref h) s = .next (s.startRead (.read ⟨ch, chip, vref⟩) ⟨ch, chip, vref⟩ h true) :=
  if_neg (not_le.2 hv)

/-- Settles O21: BUILD fails before the handle is looked at. -/
theorem readReportsTheChannelBeforeTheTransport : Obligations.ReadReportsTheChannelBeforeTheTransport := by
  intro chip ch vref h s hch hv
  rw [exec_read_startRead hv, startRead_illegal hch]

/-- The chip field has one reserved value (30_encoding.md R93). -/
theorem exists_chipField_eq {chip : BitVec 2} (h : chip ≠ 0b11#2) : ∃ c, chipField c = chip := by
  have hall : ∀ b : BitVec 2, b ≠ 0b11#2 → chipField .mcp3002 = b ∨ chipField .mcp3004 = b ∨ chipField .mcp3008 = b := by
    decide
  rcases hall chip h with h | h | h <;> exact ⟨_, h⟩

/-- The operand that CONFIGURE reports without a call of Open: the first that fails its check (R197 to R199, R228). -/
def configureFailure (chip : BitVec 2) (clockHz : Int) (vref : Option NumT) : Option ConfigOperand :=
  if chip = 0b11#2 then some .chipModel
  else if vref.getD 5 ≤ 0 then some .referenceVoltage
  else if clockHz ≤ 0 then some .clockHz
  else none

theorem exec_configure_fails {s : State} (hs : s.session.sstate ≠ .opened) (hf : s.sreadInFlight = false)
    {chip : BitVec 2} {clockHz : Int} {vref : Option NumT} {which : ConfigOperand}
    (hw : configureFailure chip clockHz vref = some which) (chDefault : Int) (mode : SpiMode) :
    exec (.configure chip chDefault clockHz vref mode) s = .next (s.replied (.fail (.invalidConfiguration which))) := by
  simp only [exec, execConfigure, hs, hf, if_false, Bool.false_eq_true]
  by_cases hchip : chip = 0b11#2
  · subst hchip
    cases hw
    rfl
  · obtain ⟨c, rfl⟩ := exists_chipField_eq hchip
    rw [configureFailure, if_neg hchip] at hw
    rw [chipOfField_chipField]
    change (if vref.getD 5 ≤ 0 then _ else _) = _
    split_ifs at hw ⊢ <;> cases hw <;> rfl

/-- Settles O25: the statement's clauses are the branches of the three checks. -/
theorem configureChecksItsOperandsInOrder : Obligations.ConfigureChecksItsOperandsInOrder := by
  intro chip chDefault clockHz vref mode s hs hf
  refine ⟨fun hchip => ?_, fun hchip hv => ?_, fun hchip hv hz => ?_⟩ <;>
    refine exec_configure_fails hs hf ?_ chDefault mode
  · simp only [configureFailure, hchip, if_true]
  · simp only [configureFailure, hchip, hv, if_true, if_false]
  · simp only [configureFailure, hchip, not_le.2 hv, hz, if_true, if_false]

/-! ## What a step adds to the logs does not depend on them -/

/-- `s` with the logs of `past` before its own. -/
def State.prependLogs (past s : State) : State :=
  { s with
    replies := past.replies ++ s.replies
    calls := past.calls ++ s.calls
    wire := past.wire ++ s.wire
    trace := past.trace ++ s.trace }

/-- An outcome with `f` applied to the next state. -/
def mapNext (f : State → State) (o : Outcome) : Outcome :=
  match o with
  | .next s => .next (f s)
  | .fault r => .fault r
  | .refused why => .refused why

theorem mapNext_ite (f : State → State) (p : Prop) [Decidable p] (o o' : Outcome) :
    mapNext f (if p then o else o') = if p then mapNext f o else mapNext f o' := apply_ite (mapNext f) p o o'

namespace State

section

variable (past s : State)

@[simp] theorem prependLogs_session : (past.prependLogs s).session = s.session := rfl
@[simp] theorem prependLogs_contexts : (past.prependLogs s).contexts = s.contexts := rfl
@[simp] theorem prependLogs_opening : (past.prependLogs s).opening = s.opening := rfl
@[simp] theorem prependLogs_closing : (past.prependLogs s).closing = s.closing := rfl
@[simp] theorem prependLogs_busy : (past.prependLogs s).busy = s.busy := rfl
@[simp] theorem prependLogs_outside : (past.prependLogs s).outside = s.outside := rfl
@[simp] theorem prependLogs_nextTicket : (past.prependLogs s).nextTicket = s.nextTicket := rfl
@[simp] theorem prependLogs_inbox : (past.prependLogs s).inbox = s.inbox := rfl
@[simp] theorem prependLogs_linkOf (h : Handle) : (past.prependLogs s).linkOf h = s.linkOf h := rfl
@[simp] theorem prependLogs_isOpen (h : Handle) : (past.prependLogs s).isOpen h = s.isOpen h := rfl
@[simp] theorem prependLogs_linkBusy (link : Option Link) : (past.prependLogs s).linkBusy link = s.linkBusy link := rfl
@[simp] theorem prependLogs_findCtx (t : Nat) : (past.prependLogs s).findCtx t = s.findCtx t := rfl
@[simp] theorem prependLogs_sreadInFlight : (past.prependLogs s).sreadInFlight = s.sreadInFlight := rfl
@[simp] theorem prependLogs_ownsHandle (h : Handle) : (past.prependLogs s).ownsHandle h = s.ownsHandle h := rfl

/-- A state is what is left without its logs, with the logs put back. -/
theorem prependLogs_withoutLogs : s.prependLogs s.withoutLogs = s := by
  simp only [prependLogs, withoutLogs, List.append_nil]

theorem withoutLogs_prependLogs : (past.prependLogs s).withoutLogs = s.withoutLogs := rfl

/-! ### The updates -/

@[simp] theorem withInbox_prependLogs (events : List Event) :
    (past.prependLogs s).withInbox events = past.prependLogs (s.withInbox events) := rfl

@[simp] theorem deliver_prependLogs (t : Nat) (r : Reply) :
    (past.prependLogs s).deliver t r = past.prependLogs (s.deliver t r) := by
  simp only [deliver, prependLogs, List.append_assoc]

@[simp] theorem nextRequest_prependLogs : (past.prependLogs s).nextRequest = past.prependLogs s.nextRequest := rfl

@[simp] theorem replyNow_prependLogs (r : Reply) :
    (past.prependLogs s).replyNow r = past.prependLogs (s.replyNow r) := by
  simp only [replyNow, prependLogs_nextTicket, deliver_prependLogs, nextRequest_prependLogs]

@[simp] theorem moveTo_prependLogs (t : Nat) (p : Phase) :
    (past.prependLogs s).moveTo t p = past.prependLogs (s.moveTo t p) := rfl

@[simp] theorem finish_prependLogs (t : Nat) (r : Reply) :
    (past.prependLogs s).finish t r = past.prependLogs (s.finish t r) :=
  deliver_prependLogs past { s with contexts := dropCtx t s.contexts } t r

@[simp] theorem traceExchange_prependLogs (link : Option Link) (a : Answer) :
    (past.prependLogs s).traceExchange link a = past.prependLogs (s.traceExchange link a) := by
  unfold traceExchange
  split <;> simp only [prependLogs, List.append_assoc]

@[simp] theorem traceClose_prependLogs (h : Handle) (a : Answer) :
    (past.prependLogs s).traceClose h a = past.prependLogs (s.traceClose h a) := by
  unfold traceClose
  split <;> simp only [prependLogs, List.append_assoc]

@[simp] theorem unlockLink_prependLogs (link : Option Link) :
    (past.prependLogs s).unlockLink link = past.prependLogs (s.unlockLink link) := by
  cases link <;> rfl

@[simp] theorem callExchange_prependLogs (c : Ctx) (link : Option Link) (live : Bool) :
    (past.prependLogs s).callExchange c link live = past.prependLogs (s.callExchange c link live) := by
  cases link <;> simp only [callExchange, lockLink, prependLogs, List.append_assoc]

@[simp] theorem releaseHandle_prependLogs (h : Handle) :
    (past.prependLogs s).releaseHandle h = past.prependLogs (s.releaseHandle h) := by
  simp only [releaseHandle, prependLogs_linkOf]
  split <;> rfl

@[simp] theorem endSession_prependLogs (t : Nat) (r : Regs) (a : Answer) :
    (past.prependLogs s).endSession t r a = past.prependLogs (s.endSession t r a) := by
  have hclosed : { past.prependLogs s with session := .closed r, closing := none }
      = past.prependLogs { s with session := .closed r, closing := none } := rfl
  simp only [endSession, hclosed, releaseHandle_prependLogs, traceClose_prependLogs, deliver_prependLogs]

@[simp] theorem startOpen_prependLogs (o : Opening) :
    (past.prependLogs s).startOpen o = past.prependLogs (s.startOpen o) := by
  simp only [startOpen, nextRequest, logCall, prependLogs, List.append_assoc]

@[simp] theorem startClose_prependLogs (r : Regs) :
    (past.prependLogs s).startClose r = past.prependLogs (s.startClose r) := by
  simp only [startClose, nextRequest, logCall, prependLogs, List.append_assoc]

@[simp] theorem enqueue_prependLogs (origin : Origin) (cmd : Frame) (h : Handle) (usable : Bool) :
    (past.prependLogs s).enqueue origin cmd h usable = past.prependLogs (s.enqueue origin cmd h usable) := rfl

/-! ### The steps of a request -/

@[simp] theorem acquire_prependLogs (c : Ctx) : (past.prependLogs s).acquire c = past.prependLogs (s.acquire c) := by
  simp only [acquire, prependLogs_linkOf, prependLogs_linkBusy, prependLogs_isOpen, callExchange_prependLogs]
  split <;> rfl

@[simp] theorem advance_prependLogs (t : Nat) : (past.prependLogs s).advance t = past.prependLogs (s.advance t) := by
  simp only [advance, prependLogs_findCtx]
  cases s.findCtx t with
  | none => rfl
  | some c =>
    dsimp only
    cases c.phase with
    | wait => exact acquire_prependLogs past s c
    | exch _ _ => rfl
    | decode rsp =>
      dsimp only
      cases decodeUnit rsp with
      | error f => exact finish_prependLogs past s t _
      | ok code => rfl
    | scale code =>
      dsimp only
      cases c.origin.vals with
      | some v => exact finish_prependLogs past s t _
      | none => rfl

@[simp] theorem received_prependLogs (c : Ctx) (bs : List Byte) :
    (past.prependLogs s).received c bs = past.prependLogs (s.received c bs) := by
  unfold received
  cases c.origin with
  | xfer => exact finish_prependLogs past s c.ticket _
  | read _ | sread _ => rfl

@[simp] theorem exchangeAnswered_prependLogs (t : Nat) (a : Answer) :
    (past.prependLogs s).exchangeAnswered t a = past.prependLogs (s.exchangeAnswered t a) := by
  simp only [exchangeAnswered, prependLogs_findCtx]
  cases s.findCtx t with
  | none => rfl
  | some c =>
    dsimp only
    cases c.phase with
    | wait | decode _ | scale _ => rfl
    | exch link live =>
      simp only [unlockLink_prependLogs, traceExchange_prependLogs]
      cases exchangeHears live a with
      | none => rfl
      | some heard =>
        dsimp only
        cases acceptAnswer heard with
        | error f => exact finish_prependLogs past _ t _
        | ok bs => exact received_prependLogs past _ c bs

@[simp] theorem runIfAnswered_prependLogs (t : Nat) :
    (past.prependLogs s).runIfAnswered t = past.prependLogs (s.runIfAnswered t) := by
  by_cases h : ∃ a rest, s.inbox = .move (.answer t a) :: rest
  · obtain ⟨a, rest, hi⟩ := h
    rw [runIfAnswered_of_answer hi, runIfAnswered_of_answer (s := past.prependLogs s) hi]
    simp only [withInbox_prependLogs, advance_prependLogs, exchangeAnswered_prependLogs]
  · simp only [not_exists] at h
    rw [runIfAnswered_waits h, runIfAnswered_waits (s := past.prependLogs s) h]

@[simp] theorem startExchange_prependLogs (origin : Origin) (cmd : Frame) (h : Handle) (usable : Bool) :
    (past.prependLogs s).startExchange origin cmd h usable = past.prependLogs (s.startExchange origin cmd h usable) := by
  simp only [startExchange, enqueue_prependLogs, prependLogs_nextTicket, runIfAnswered_prependLogs]

@[simp] theorem startRead_prependLogs (origin : Origin) (v : ReadVals) (h : Handle) (usable : Bool) :
    (past.prependLogs s).startRead origin v h usable = past.prependLogs (s.startRead origin v h usable) := by
  unfold startRead
  cases encodeUnit v.chip v.ch with
  | error f => exact replyNow_prependLogs past s _
  | ok cmd => exact startExchange_prependLogs past s origin cmd h usable

@[simp] theorem encodeRequest_prependLogs (chip : ChipModel) (ch : Int) :
    (past.prependLogs s).encodeRequest chip ch = past.prependLogs (s.encodeRequest chip ch) := by
  unfold encodeRequest
  cases encodeUnit chip ch <;> exact replyNow_prependLogs past s _

@[simp] theorem decodeRequest_prependLogs (rsp : List Byte) :
    (past.prependLogs s).decodeRequest rsp = past.prependLogs (s.decodeRequest rsp) := by
  unfold decodeRequest
  cases decodeUnit rsp <;> exact replyNow_prependLogs past s _

/-! ### The session operations -/

theorem opened_prependLogs (o : Opening) (h : Handle) :
    (past.prependLogs s).opened o h = past.prependLogs (s.opened o h) :=
  deliver_prependLogs past { (s.endOpening o.ticket).openHandle h Config.ownLink with session := .opened (o.regs h) } _ _

theorem openAnswered_prependLogs (o : Opening) (a : Answer) :
    (past.prependLogs s).openAnswered o a = mapNext past.prependLogs (s.openAnswered o a) := by
  cases a with
  | bytes _ | done => rfl
  | failed => exact congrArg Host.Outcome.next (deliver_prependLogs past (s.endOpening o.ticket) _ _)
  | handle h =>
    by_cases hs : s.session.sstate = .opened
    · rw [openAnswered_handle_opened hs, openAnswered_handle_opened (s := past.prependLogs s) hs]
      rfl
    · cases hf : s.sreadInFlight with
      | true =>
        rw [openAnswered_handle_sreadInFlight hs hf, openAnswered_handle_sreadInFlight (s := past.prependLogs s) hs hf]
        rfl
      | false =>
        rw [openAnswered_handle hs hf, openAnswered_handle (s := past.prependLogs s) hs hf, opened_prependLogs]
        rfl

theorem closeAnswered_prependLogs (t : Nat) (a : Answer) :
    (past.prependLogs s).closeAnswered t a = mapNext past.prependLogs (s.closeAnswered t a) := by
  simp only [closeAnswered, prependLogs_session, prependLogs_sreadInFlight, endSession_prependLogs]
  cases s.session with
  | unconfigured | closed _ => rfl
  | opened r =>
    cases a with
    | bytes _ | handle _ => rfl
    | done | failed =>
      dsimp only
      rw [mapNext_ite]
      rfl

theorem openIfAnswered_prependLogs (o : Opening) :
    (past.prependLogs s).openIfAnswered o = mapNext past.prependLogs (s.openIfAnswered o) := by
  by_cases h : ∃ a rest, s.inbox = .move (.answer o.ticket a) :: rest
  · obtain ⟨a, rest, hi⟩ := h
    rw [openIfAnswered_of_answer hi, openIfAnswered_of_answer (s := past.prependLogs s) hi, withInbox_prependLogs,
      openAnswered_prependLogs]
  · simp only [not_exists] at h
    rw [openIfAnswered_waits h, openIfAnswered_waits (s := past.prependLogs s) h]
    rfl

theorem closeIfAnswered_prependLogs (t : Nat) :
    (past.prependLogs s).closeIfAnswered t = mapNext past.prependLogs (s.closeIfAnswered t) := by
  by_cases h : ∃ a rest, s.inbox = .move (.answer t a) :: rest
  · obtain ⟨a, rest, hi⟩ := h
    rw [closeIfAnswered_of_answer hi, closeIfAnswered_of_answer (s := past.prependLogs s) hi, withInbox_prependLogs,
      closeAnswered_prependLogs]
  · simp only [not_exists] at h
    rw [closeIfAnswered_waits h, closeIfAnswered_waits (s := past.prependLogs s) h]
    rfl

end

end State

/-! ### The instructions, the moves, the step -/

section

variable (past s : State)

theorem execConfigure_prependLogs (chip : BitVec 2) (chDefault clockHz : Int) (vref : Option NumT) (mode : SpiMode) :
    execConfigure chip chDefault clockHz vref mode (past.prependLogs s)
      = mapNext past.prependLogs (execConfigure chip chDefault clockHz vref mode s) := by
  simp only [execConfigure, State.prependLogs_session, State.prependLogs_sreadInFlight, State.prependLogs_nextTicket,
    State.replyNow_prependLogs, State.startOpen_prependLogs, State.openIfAnswered_prependLogs, mapNext_ite]
  cases chipOfField chip with
  | none => rfl
  | some c =>
    dsimp only
    rw [mapNext_ite, mapNext_ite]
    rfl

theorem execSread_prependLogs (ch : Option Int) :
    execSread ch (past.prependLogs s) = mapNext past.prependLogs (execSread ch s) := by
  simp only [execSread, State.prependLogs_session, State.startRead_prependLogs]
  cases s.session <;> rfl

theorem execClose_prependLogs : execClose (past.prependLogs s) = mapNext past.prependLogs (execClose s) := by
  simp only [execClose, State.prependLogs_session, State.prependLogs_sreadInFlight, State.prependLogs_closing,
    State.prependLogs_nextTicket, State.replyNow_prependLogs, State.startClose_prependLogs,
    State.closeIfAnswered_prependLogs]
  cases s.session with
  | unconfigured | closed _ => rfl
  | opened r =>
    dsimp only
    rw [mapNext_ite, mapNext_ite]
    rfl

theorem execRead_prependLogs (chip : ChipModel) (ch : Int) (vref : NumT) (h : Handle) :
    execRead chip ch vref h (past.prependLogs s) = mapNext past.prependLogs (execRead chip ch vref h s) := by
  simp only [execRead, State.startRead_prependLogs, mapNext_ite]
  rfl

theorem execScale_prependLogs (code : Code) (vref : NumT) :
    execScale code vref (past.prependLogs s) = mapNext past.prependLogs (execScale code vref s) := by
  simp only [execScale, State.replyNow_prependLogs, mapNext_ite]
  rfl

theorem exec_prependLogs (i : Instr) : exec i (past.prependLogs s) = mapNext past.prependLogs (exec i s) := by
  cases i with
  | configure => exact execConfigure_prependLogs past s _ _ _ _ _
  | sread => exact execSread_prependLogs past s _
  | close => exact execClose_prependLogs past s
  | read => exact execRead_prependLogs past s _ _ _ _
  | scale => exact execScale_prependLogs past s _ _
  | xfer => exact congrArg Host.Outcome.next (State.startExchange_prependLogs past s _ _ _ _)
  | decode | rsp24 => exact congrArg Host.Outcome.next (State.decodeRequest_prependLogs past s _)
  | encode | cmd24Mcp3002 | cmd24Mcp3004 | cmd24Mcp3008 | cmd24Mcp3002Ch0 | cmd24Mcp3002Ch1 | cmd24Mcp3004Ch0
  | cmd24Mcp3004Ch1 | cmd24Mcp3004Ch2 | cmd24Mcp3004Ch3 | cmd24Mcp3008Ch0 | cmd24Mcp3008Ch1 | cmd24Mcp3008Ch2
  | cmd24Mcp3008Ch3 | cmd24Mcp3008Ch4 | cmd24Mcp3008Ch5 | cmd24Mcp3008Ch6 | cmd24Mcp3008Ch7 =>
    exact congrArg Host.Outcome.next (State.encodeRequest_prependLogs past s _ _)

theorem answerMove_prependLogs (t : Nat) (a : Answer) :
    answerMove t a (past.prependLogs s) = mapNext past.prependLogs (answerMove t a s) := by
  simp only [answerMove, State.prependLogs_closing, State.prependLogs_opening, State.closeAnswered_prependLogs,
    State.openAnswered_prependLogs, State.exchangeAnswered_prependLogs, mapNext_ite]
  cases s.opening.find? fun o => decide (o.ticket = t) <;> rfl

theorem perform_prependLogs (m : Move) : perform m (past.prependLogs s) = mapNext past.prependLogs (perform m s) := by
  cases m with
  | advance t => exact congrArg Host.Outcome.next (State.advance_prependLogs past s t)
  | answer t a => exact answerMove_prependLogs past s t a
  | outsideOpen h l =>
    simp only [perform, outsideOpenMove, State.prependLogs_ownsHandle, mapNext_ite]
    rfl
  | outsideClose h =>
    simp only [perform, outsideCloseMove, State.prependLogs_ownsHandle, State.releaseHandle_prependLogs, mapNext_ite]
    rfl
  | outsideTake l =>
    simp only [perform, outsideTakeMove, State.prependLogs_busy, mapNext_ite]
    rfl
  | outsideFree l =>
    simp only [perform, outsideFreeMove, State.prependLogs_outside, mapNext_ite]
    rfl

theorem issue_prependLogs (w : ReqWord) : issue w (past.prependLogs s) = mapNext past.prependLogs (issue w s) := by
  unfold issue
  cases decode w with
  | error why => rfl
  | ok i => exact exec_prependLogs past s i

/-- R243, R230: a step adds the same to whatever stands in the logs. -/
theorem step_prependLogs : step (past.prependLogs s) = mapNext past.prependLogs (step s) := by
  unfold step
  rw [State.prependLogs_inbox]
  cases s.inbox with
  | nil => rfl
  | cons e rest =>
    cases e with
    | request w => exact issue_prependLogs past (s.withInbox rest) w
    | move m => exact perform_prependLogs past (s.withInbox rest) m

theorem step_eq_mapNext_withoutLogs : step s = mapNext s.prependLogs (step s.withoutLogs) := by
  rw [← step_prependLogs, State.prependLogs_withoutLogs]

end

theorem mapNext_eq_next {f : State → State} {o : Outcome} {s' : State} (h : mapNext f o = .next s') :
    ∃ v, o = .next v ∧ f v = s' := by
  cases o with
  | next v => exact ⟨v, rfl, Host.Outcome.next.inj h⟩
  | fault r | refused why => cases h

theorem mapNext_eq_refused {f : State → State} {o : Outcome} {why : Refusal} (h : mapNext f o = .refused why) :
    o = .refused why := by
  cases o with
  | next v | fault r => cases h
  | refused why' => exact h

/-- Settles O53: the next state is the one from empty logs, with the old logs before what it has logged. -/
theorem logsOnlyGrow : Obligations.LogsOnlyGrow := by
  intro s s' h
  rw [step_eq_mapNext_withoutLogs] at h
  obtain ⟨v, -, rfl⟩ := mapNext_eq_next h
  exact ⟨⟨_, rfl⟩, ⟨_, rfl⟩, ⟨_, rfl⟩, ⟨_, rfl⟩⟩

/-- Settles O54: both steps are the step of the one state without logs. -/
theorem logsAreNeverRead : Obligations.LogsAreNeverRead := by
  intro s u heq
  rw [step_eq_mapNext_withoutLogs s, step_eq_mapNext_withoutLogs u, heq]
  refine ⟨fun s' h => ?_, fun why h => ?_⟩
  · obtain ⟨v, hv, rfl⟩ := mapNext_eq_next h
    rw [hv]
    exact ⟨u.prependLogs v, rfl, (s.withoutLogs_prependLogs v).trans (u.withoutLogs_prependLogs v).symm⟩
  · rw [mapNext_eq_refused h]
    rfl

/-! ## How CONFIGURE and CLOSE can go on -/

theorem openIfAnswered_cases {s s' : State} {o : Opening} (h : s.openIfAnswered o = .next s') :
    s' = s ∨ ∃ a rest, (s.withInbox rest).openAnswered o a = .next s' := by
  by_cases hi : ∃ a rest, s.inbox = .move (.answer o.ticket a) :: rest
  · obtain ⟨a, rest, hi⟩ := hi
    exact .inr ⟨a, rest, openIfAnswered_of_answer hi ▸ h⟩
  · simp only [not_exists] at hi
    rw [openIfAnswered_waits hi] at h
    exact .inl (Host.Outcome.next.inj h).symm

theorem closeIfAnswered_cases {s s' : State} {t : Nat} (h : s.closeIfAnswered t = .next s') :
    s' = s ∨ ∃ a rest, (s.withInbox rest).closeAnswered t a = .next s' := by
  by_cases hi : ∃ a rest, s.inbox = .move (.answer t a) :: rest
  · obtain ⟨a, rest, hi⟩ := hi
    exact .inr ⟨a, rest, closeIfAnswered_of_answer hi ▸ h⟩
  · simp only [not_exists] at hi
    rw [closeIfAnswered_waits hi] at h
    exact .inl (Host.Outcome.next.inj h).symm

/-- The operands that pass the three checks. -/
theorem legal_of_configureFailure_eq_none {chip : BitVec 2} {clockHz : Int} {vref : Option NumT}
    (h : configureFailure chip clockHz vref = none) : (∃ c, chipField c = chip) ∧ 0 < vref.getD 5 ∧ 0 < clockHz := by
  unfold configureFailure at h
  split_ifs at h with hchip hv hz
  exact ⟨exists_chipField_eq hchip, not_le.1 hv, not_le.1 hz⟩

/-- CONFIGURE that is not refused reports the operand that fails its check, or calls Open. -/
theorem exec_configure_cases {s s' : State} {chip : BitVec 2} {chDefault clockHz : Int} {vref : Option NumT} {mode : SpiMode}
    (h : exec (.configure chip chDefault clockHz vref mode) s = .next s') :
    (∃ which, s' = s.replied (.fail (.invalidConfiguration which))) ∨
    ∃ o, (s.startOpen o).openIfAnswered o = .next s' := by
  by_cases hs : s.session.sstate = .opened
  · rw [exec_configure_opened hs] at h
    cases h
  cases hf : s.sreadInFlight with
  | true =>
    rw [exec_configure_sreadInFlight hs hf] at h
    cases h
  | false =>
    cases hw : configureFailure chip clockHz vref with
    | some which =>
      rw [exec_configure_fails hs hf hw] at h
      exact .inl ⟨which, (Host.Outcome.next.inj h).symm⟩
    | none =>
      obtain ⟨⟨c, rfl⟩, hv, hz⟩ := legal_of_configureFailure_eq_none hw
      rw [exec_configure_legal hs hf hv hz] at h
      exact .inr ⟨_, h⟩

/-- CLOSE that is not refused finds the session CLOSED, or calls Close. -/
theorem exec_close_cases {s s' : State} (h : exec .close s = .next s') :
    s' = s.replied (.ok .none) ∨ ∃ r, (s.startClose r).closeIfAnswered s.nextTicket = .next s' := by
  cases hs : s.session with
  | unconfigured =>
    rw [exec_close_unconfigured hs] at h
    cases h
  | closed r =>
    rw [exec_close_closed hs] at h
    exact .inl (Host.Outcome.next.inj h).symm
  | opened r =>
    cases hf : s.sreadInFlight with
    | true =>
      rw [exec_close_sreadInFlight hs hf] at h
      cases h
    | false =>
      by_cases hc : s.closing = none
      · rw [exec_close_opened hs hf hc] at h
        exact .inr ⟨r, h⟩
      · rw [exec_close_closing hs hf hc] at h
        cases h

/-! ## Which replies a request may end with -/

/-- The reply is no MalformedResponse. -/
def Reply.NotMalformed (r : Reply) : Prop := ∀ n, r ≠ .fail (.malformedResponse n)

theorem Reply.notMalformed_ok (r : Result) : (Reply.ok r).NotMalformed := fun _ => Reply.noConfusion

theorem Reply.notMalformed_fail {f : Failure} (hf : ∀ n, f ≠ .malformedResponse n) : (Reply.fail f).NotMalformed :=
  fun n h => hf n (Reply.fail.inj h)

/-- No MalformedResponse has been delivered since the replies were `old`, and none is on its way: a request that goes to
DECODE has its three bytes. -/
structure State.NoMalformedSince (old : List (Nat × Reply)) (s : State) : Prop where
  decode : ∀ c ∈ s.contexts, ∀ rsp, c.phase = .decode rsp → rsp.length = 3
  replies : ∀ x ∈ s.replies, x ∈ old ∨ x.2.NotMalformed

theorem State.Inv.noMalformedSince {s : State} (hI : s.Inv) : s.NoMalformedSince s.replies :=
  ⟨fun c hc rsp hp => ((hI.contexts c hc).decode rsp hp).1, fun _ => .inl⟩

namespace State.NoMalformedSince

variable {old : List (Nat × Reply)} {s : State}

theorem keep (h : s.NoMalformedSince old) {s' : State} (hc : ∀ c ∈ s'.contexts, c ∈ s.contexts)
    (hr : s'.replies = s.replies) : s'.NoMalformedSince old :=
  ⟨fun c hc' => h.decode c (hc c hc'), hr ▸ h.replies⟩

/-- A request ends. -/
theorem reply (h : s.NoMalformedSince old) {s' : State} {t : Nat} {r : Reply} (hc : ∀ c ∈ s'.contexts, c ∈ s.contexts)
    (hr : s'.replies = s.replies ++ [(t, r)]) (hgood : r.NotMalformed) : s'.NoMalformedSince old := by
  refine ⟨fun c hc' => h.decode c (hc c hc'), fun x hx => ?_⟩
  rw [hr] at hx
  rcases List.mem_append.1 hx with hx | hx
  · exact h.replies x hx
  · exact .inr (List.mem_singleton.1 hx ▸ hgood)

/-- A request goes on to another phase. -/
theorem moveOn (h : s.NoMalformedSince old) {s' : State} {t : Nat} {p : Phase} (hc : s'.contexts = setPhase t p s.contexts)
    (hr : s'.replies = s.replies) (hp : ∀ rsp, p = .decode rsp → rsp.length = 3) : s'.NoMalformedSince old := by
  refine ⟨fun c hc' rsp hphase => ?_, hr ▸ h.replies⟩
  obtain ⟨d, hd, ⟨-, rfl⟩ | ⟨-, rfl⟩⟩ := mem_setPhase (hc ▸ hc')
  · exact hp rsp hphase
  · exact h.decode c hd rsp hphase

theorem replied (h : s.NoMalformedSince old) {r : Reply} (hgood : r.NotMalformed) : (s.replied r).NoMalformedSince old :=
  h.reply (fun _ => id) rfl hgood

theorem withInbox (h : s.NoMalformedSince old) (events : List Event) : (s.withInbox events).NoMalformedSince old :=
  h.keep (fun _ => id) rfl

/-! ### The steps of a request -/

theorem enqueue (h : s.NoMalformedSince old) (origin : Origin) (cmd : Frame) (hd : Handle) (usable : Bool) :
    (s.enqueue origin cmd hd usable).NoMalformedSince old := by
  refine ⟨fun c hc rsp hp => ?_, h.replies⟩
  rcases List.mem_append.1 hc with hc | hc
  · exact h.decode c hc rsp hp
  · rw [List.mem_singleton.1 hc] at hp
    cases hp

theorem advance (h : s.NoMalformedSince old) (t : Nat) : (s.advance t).NoMalformedSince old := by
  rcases advance_cases s t with he | ⟨c, -, -, -, he⟩ | ⟨c, rsp, code, -, -, -, he⟩ | ⟨c, rsp, f, hf, hp, hd, -⟩ |
      ⟨c, code, v, -, -, -, he⟩
  · rwa [he]
  · rw [he]
    exact h.moveOn (State.callExchange_contexts s c _ _) (State.callExchange_replies s c _ _) (by simp)
  · rw [he]
    exact h.moveOn (s.moveTo_contexts t _) rfl (by simp)
  · obtain ⟨x, b1, b2, rfl⟩ := eq_three_of_length (h.decode c (findCtx_some hf).1 rsp hp)
    cases hd
  · rw [he]
    exact h.reply (fun _ hc => (mem_dropCtx.1 hc).1) rfl (Reply.notMalformed_ok _)

theorem exchangeAnswered (h : s.NoMalformedSince old) (t : Nat) (a : Answer) :
    (s.exchangeAnswered t a).NoMalformedSince old := by
  rcases exchangeAnswered_cases s t a with he |
      ⟨c, link, live, heard, -, -, -, ⟨cause, -, he⟩ | ⟨bs, -, -, he⟩ | ⟨bs, hok, -, he⟩⟩ <;> rw [he]
  · exact h
  · exact h.reply (t := t) (r := .fail (.transportError cause)) (fun _ hc => by simpa using (mem_dropCtx.1 hc).1) (by simp)
      (Reply.notMalformed_fail (by simp))
  · exact h.reply (t := t) (r := .ok (.response bs)) (fun _ hc => by simpa using (mem_dropCtx.1 hc).1) (by simp)
      (Reply.notMalformed_ok _)
  · refine h.moveOn (t := t) (p := .decode bs) (by simp) (by simp) ?_
    rintro _ ⟨⟩
    exact acceptAnswer_ok hok

theorem runIfAnswered (h : s.NoMalformedSince old) (t : Nat) : (s.runIfAnswered t).NoMalformedSince old := by
  rcases runIfAnswered_cases s t with he | ⟨a, rest, -, he⟩ <;> rw [he]
  · exact h
  · exact ((((h.withInbox rest).advance t).exchangeAnswered t a).advance t).advance t

theorem startExchange (h : s.NoMalformedSince old) (origin : Origin) (cmd : Frame) (hd : Handle) (usable : Bool) :
    (s.startExchange origin cmd hd usable).NoMalformedSince old :=
  (h.enqueue origin cmd hd usable).runIfAnswered _

theorem startRead (h : s.NoMalformedSince old) (origin : Origin) (v : ReadVals) (hd : Handle) (usable : Bool) :
    (s.startRead origin v hd usable).NoMalformedSince old := by
  by_cases hv : channelLegal v.chip v.ch
  · rw [startRead_legal hv]
    exact h.startExchange origin _ hd usable
  · rw [startRead_illegal hv]
    exact h.replied (Reply.notMalformed_fail (by simp))

theorem encodeRequest (h : s.NoMalformedSince old) (chip : ChipModel) (ch : Int) :
    (s.encodeRequest chip ch).NoMalformedSince old := by
  by_cases hch : channelLegal chip ch
  · rw [encodeRequest_legal hch]
    exact h.replied (Reply.notMalformed_ok _)
  · rw [encodeRequest_illegal hch]
    exact h.replied (Reply.notMalformed_fail (by simp))

theorem decodeRequest (h : s.NoMalformedSince old) {rsp : List Byte} (hlen : rsp.length = 3) :
    (s.decodeRequest rsp).NoMalformedSince old := by
  obtain ⟨x, b1, b2, rfl⟩ := eq_three_of_length hlen
  rw [decodeRequest_three]
  exact h.replied (Reply.notMalformed_ok _)

/-! ### The session operations -/

theorem openAnswered (h : s.NoMalformedSince old) {s' : State} {o : Opening} {a : Answer}
    (he : s.openAnswered o a = .next s') : s'.NoMalformedSince old := by
  cases a with
  | handle hd =>
    simp only [State.openAnswered] at he
    split_ifs at he
    cases he
    exact h.reply (fun _ => id) rfl (Reply.notMalformed_ok _)
  | failed =>
    cases he
    exact h.reply (fun _ => id) rfl (Reply.notMalformed_fail (by simp))
  | bytes _ | done => exact Host.Outcome.next.inj he ▸ h

theorem closeAnswered (h : s.NoMalformedSince old) {s' : State} {t : Nat} {a : Answer}
    (he : s.closeAnswered t a = .next s') : s'.NoMalformedSince old := by
  cases hs : s.session with
  | unconfigured | closed r =>
    simp only [State.closeAnswered, hs, Host.Outcome.next.injEq] at he
    exact he ▸ h
  | opened r =>
    rcases closeAnswered_cases hs he with rfl | rfl
    · exact h
    · exact h.reply (by simp) (s.endSession_replies t r a) (Reply.notMalformed_ok _)

theorem openIfAnswered (h : s.NoMalformedSince old) {s' : State} {o : Opening} (he : s.openIfAnswered o = .next s') :
    s'.NoMalformedSince old := by
  rcases openIfAnswered_cases he with rfl | ⟨a, rest, he⟩
  · exact h
  · exact (h.withInbox rest).openAnswered he

theorem closeIfAnswered (h : s.NoMalformedSince old) {s' : State} {t : Nat} (he : s.closeIfAnswered t = .next s') :
    s'.NoMalformedSince old := by
  rcases closeIfAnswered_cases he with rfl | ⟨a, rest, he⟩
  · exact h
  · exact (h.withInbox rest).closeAnswered he

theorem configure (h : s.NoMalformedSince old) {s' : State} {chip : BitVec 2} {chDefault clockHz : Int} {vref : Option NumT}
    {mode : SpiMode} (he : Sys2Proof.Machine.exec (.configure chip chDefault clockHz vref mode) s = .next s') :
    s'.NoMalformedSince old := by
  rcases exec_configure_cases he with ⟨which, rfl⟩ | ⟨o, he⟩
  · exact h.replied (Reply.notMalformed_fail (by simp))
  · exact (h.keep (s' := s.startOpen o) (fun _ => id) rfl).openIfAnswered he

theorem close (h : s.NoMalformedSince old) {s' : State} (he : Sys2Proof.Machine.exec .close s = .next s') :
    s'.NoMalformedSince old := by
  rcases exec_close_cases he with rfl | ⟨r, he⟩
  · exact h.replied (Reply.notMalformed_ok _)
  · exact (h.keep (s' := s.startClose r) (fun _ => id) rfl).closeIfAnswered he

theorem sread (h : s.NoMalformedSince old) {s' : State} {ch : Option Int} (he : execSread ch s = .next s') :
    s'.NoMalformedSince old := by
  unfold execSread at he
  cases hs : s.session with
  | unconfigured => simp [hs] at he
  | opened r | closed r =>
    simp only [hs, Host.Outcome.next.injEq] at he
    exact he ▸ h.startRead _ _ _ _

/-! ### The instructions and the moves -/

/-- A DECODE of a sequence of another length is the only instruction left out. -/
theorem exec (h : s.NoMalformedSince old) {s' : State} {i : Instr} (hi : ∀ rsp, i = .decode rsp → rsp.length = 3)
    (he : Sys2Proof.Machine.exec i s = .next s') : s'.NoMalformedSince old := by
  cases i with
  | configure => exact h.configure he
  | sread => exact h.sread he
  | close => exact h.close he
  | read chip ch vref hd =>
    rcases le_or_gt vref 0 with hv | hv
    · rw [exec_read_nonPositive chip ch hv] at he
      cases he
    · rw [exec_read_startRead hv] at he
      exact Host.Outcome.next.inj he ▸ h.startRead _ _ _ _
  | scale code vref =>
    rcases le_or_gt vref 0 with hv | hv
    · rw [exec_scale_nonPositive code hv] at he
      cases he
    · rw [alwaysReplies_scale code hv] at he
      exact Host.Outcome.next.inj he ▸ h.replied (Reply.notMalformed_ok _)
  | xfer => exact Host.Outcome.next.inj he ▸ h.startExchange _ _ _ _
  | decode rsp => exact Host.Outcome.next.inj he ▸ h.decodeRequest (hi rsp rfl)
  | rsp24 => exact Host.Outcome.next.inj he ▸ h.decodeRequest rfl
  | encode | cmd24Mcp3002 | cmd24Mcp3004 | cmd24Mcp3008 | cmd24Mcp3002Ch0 | cmd24Mcp3002Ch1 | cmd24Mcp3004Ch0
  | cmd24Mcp3004Ch1 | cmd24Mcp3004Ch2 | cmd24Mcp3004Ch3 | cmd24Mcp3008Ch0 | cmd24Mcp3008Ch1 | cmd24Mcp3008Ch2
  | cmd24Mcp3008Ch3 | cmd24Mcp3008Ch4 | cmd24Mcp3008Ch5 | cmd24Mcp3008Ch6 | cmd24Mcp3008Ch7 =>
    exact Host.Outcome.next.inj he ▸ h.encodeRequest _ _

theorem answerMove (h : s.NoMalformedSince old) {s' : State} {t : Nat} {a : Answer}
    (he : Sys2Proof.Machine.answerMove t a s = .next s') : s'.NoMalformedSince old := by
  unfold Sys2Proof.Machine.answerMove at he
  split at he
  · exact h.closeAnswered he
  · split at he
    · exact h.openAnswered he
    · exact Host.Outcome.next.inj he ▸ h.exchangeAnswered t a

theorem perform (h : s.NoMalformedSince old) {s' : State} {m : Move} (he : Sys2Proof.Machine.perform m s = .next s') :
    s'.NoMalformedSince old := by
  cases m with
  | advance t => exact Host.Outcome.next.inj he ▸ h.advance t
  | answer => exact h.answerMove he
  | outsideOpen | outsideTake | outsideFree =>
    simp only [Sys2Proof.Machine.perform, outsideOpenMove, outsideTakeMove, outsideFreeMove] at he
    split at he <;> cases he
    · exact h.keep (fun _ => id) rfl
    · exact h.keep (fun _ => id) rfl
  | outsideClose hd =>
    simp only [Sys2Proof.Machine.perform, outsideCloseMove] at he
    split at he <;> cases he
    · exact h
    · exact h.keep (by simp) (s.releaseHandle_replies hd)

theorem not_mem (h : s.NoMalformedSince old) {t n : Nat} (hold : (t, Reply.fail (.malformedResponse n)) ∉ old) :
    (t, Reply.fail (.malformedResponse n)) ∉ s.replies := fun hx =>
  (h.replies _ hx).elim hold fun hgood => hgood n rfl

end State.NoMalformedSince

/-- Settles O10: a DECODE of another length has the one reply of its failure, and all else in a step adds no
MalformedResponse, since by the invariant a request that goes to DECODE has its three bytes. -/
theorem onlyDecodeDeliversMalformedResponse : Obligations.OnlyDecodeDeliversMalformedResponse := by
  intro s s' t n hI h hnew hold
  have hstart := hI.noMalformedSince
  cases hi : s.inbox with
  | nil =>
    rw [step_idle hi] at h
    exact absurd (Host.Outcome.next.inj h ▸ hnew) hold
  | cons e rest =>
    cases e with
    | move m =>
      simp only [step, hi] at h
      exact absurd hnew (((hstart.withInbox rest).perform h).not_mem hold)
    | request w =>
      rw [step_request hi] at h
      cases hd : decode w with
      | error why =>
        rw [issue_error hd] at h
        cases h
      | ok i =>
        rw [issue_ok hd] at h
        by_cases hbad : ∃ rsp, i = .decode rsp ∧ rsp.length ≠ 3
        · obtain ⟨rsp, rfl, hlen⟩ := hbad
          rw [alwaysReplies_decode_error (decodeUnit_other hlen)] at h
          obtain rfl := Host.Outcome.next.inj h
          obtain ⟨-, rfl⟩ : t = s.nextTicket ∧ n = rsp.length := by simpa [hold] using hnew
          exact ⟨w, rest, rsp, rfl, hd, rfl, hlen⟩
        · have hgood : ∀ rsp, i = .decode rsp → rsp.length = 3 := fun rsp hrsp =>
            not_not.1 fun hlen => hbad ⟨rsp, hrsp, hlen⟩
          exact absurd hnew (((hstart.withInbox rest).exec hgood h).not_mem hold)

end Sys2Proof.Machine
end

section
/-! # Reset, and what a waiting request waits for (70_reset_and_hazards.md) -/

namespace Sys2Proof.Machine

/-! ## Reset -/

/-- Settles O40: the slot is UNCONFIGURED and every list is empty, so no link is found busy and no handle open. -/
theorem resetState : Obligations.ResetState :=
  ⟨rfl, rfl, rfl, rfl, fun _ => rfl, fun _ => rfl⟩

/-- Settles O41: nothing is in flight, held or open, and the inbox has no part in the invariant. -/
theorem resetMeetsTheInvariant : Obligations.ResetMeetsTheInvariant := inv_reset

/-! ## A slot that has been configured -/

/-- R261: Open and Close give the slot another form, with registers; every other update leaves it as it is. -/
theorem configured_keptByUpdates : KeptByUpdates fun s => s.session ≠ .unconfigured where
  consume _ _ _ _ h := h
  replyNow _ _ h := h
  enqueue _ _ _ _ _ _ h := h
  advance s t h := by rwa [(State.SameSlot.advance s t).session_eq]
  exchangeAnswered s t a rest _ h := by rwa [(State.SameSlot.exchangeAnswered (s.withInbox rest) t a).session_eq]
  startOpen _ _ _ _ _ h := h
  opened _ _ _ _ _ _ _ := Session.noConfusion
  openFailed _ _ _ h := h
  startClose _ _ _ _ _ h := h
  endSession s t r a _ _ _ _ := by simp
  outsideOpen _ _ _ _ h := h
  outsideClose _ _ _ h := by simpa using h
  outsideTake _ _ _ h := h
  outsideFree _ _ _ h := h

/-- Settles O47: a slot that is not UNCONFIGURED is not UNCONFIGURED after the step. -/
theorem noWayBackToUnconfigured : Obligations.NoWayBackToUnconfigured := by
  intro s s' h hs'
  by_contra hs
  exact configured_keptByUpdates.step hs h hs'

/-! ## Who holds a link -/

/-- A context is in one exchange at a time, on one link. -/
theorem Ctx.eq_of_holds {c : Ctx} {k l : Link} (hk : c.holds k = true) (hl : c.holds l = true) : k = l := by
  rw [Ctx.holds_eq, decide_eq_true_eq] at hk hl
  exact Option.some.inj (hk.symm.trans hl)

/-- R240: BUSY of a link is 1 exactly when another user holds it or some context is in EXCH on it. -/
theorem State.LocksGood.mem_busy_iff_held {s : State} (h : s.LocksGood) (l : Link) :
    l ∈ s.busy ↔ l ∈ s.outside ∨ ∃ d ∈ s.contexts, d.holds l = true := by
  rw [h.mem_busy_iff, State.holders, Nat.add_pos_iff_pos_or_pos, List.countP_pos_iff, List.count_pos_iff, or_comm]

/-- Settles O49: a busy link has a holder, and a context holds no link but the one it exchanges on. -/
theorem blockedOnlyByAnExchangeInFlight : Obligations.BlockedOnlyByAnExchangeInFlight := by
  intro s c l hI _ _ _ hbusy
  rcases (hI.locksGood.mem_busy_iff_held l).1 hbusy with hout | ⟨d, hd, hl⟩
  · exact .inl hout
  · exact .inr ⟨d, hd, hl, fun _ hk => Ctx.eq_of_holds hk hl⟩

end Sys2Proof.Machine
end

section
/-! # Decoding after encoding (30_encoding.md R87, R89, R92 to R95)

Support: a pattern row against the exact row that shares its word (log entry 2), and the words of the other instructions;
then the statement of this family. -/

namespace Sys2Proof.Machine

/-! ## A pattern row and the exact row of its channel -/

/-- No two rows of one chip have the same word, so the chip field and the word find the row again (R89). -/
theorem decode_cmdRow : ∀ row ∈ cmdRows, decode (.cmd24 (chipField row.chip) row.word) = .ok row.instr := by decide

/-- The exact row of channel `n` of the chip is the canonical name of `i`, and has the word of `i`. -/
@[reducible] def NamesCmdRow (i : Instr) (chip : ChipModel) (n : Nat) : Prop :=
  ∃ row ∈ cmdRows, row.chip = chip ∧ row.channel = n ∧ i.canonical = row.instr ∧ encode i = .cmd24 (chipField chip) row.word

theorem namesCmdRow_mcp3002 (c : BitVec 1) : NamesCmdRow (.cmd24Mcp3002 c) .mcp3002 c.toNat := by
  revert c
  decide

theorem namesCmdRow_mcp3004 (cc : BitVec 2) : NamesCmdRow (.cmd24Mcp3004 cc) .mcp3004 cc.toNat := by
  revert cc
  decide

theorem namesCmdRow_mcp3008 (ccc : BitVec 3) : NamesCmdRow (.cmd24Mcp3008 ccc) .mcp3008 ccc.toNat := by
  revert ccc
  decide

theorem NamesCmdRow.decode_encode {i : Instr} {chip : ChipModel} {n : Nat} (h : NamesCmdRow i chip n) :
    decode (encode i) = .ok i.canonical := by
  obtain ⟨row, hmem, rfl, -, hcanon, hword⟩ := h
  rw [hword, hcanon, decode_cmdRow row hmem]

/-- An instruction that runs as ENCODE of the row's channel runs as the row does (log entry 1). -/
theorem NamesCmdRow.exec_canonical {i : Instr} {chip : ChipModel} {n : Nat} (h : NamesCmdRow i chip n) {s : State}
    (hexec : exec i s = exec (.encode chip n) s) : exec i.canonical s = exec i s := by
  obtain ⟨row, hmem, rfl, rfl, hcanon, -⟩ := h
  rw [hcanon, exec_cmdRow s row hmem, hexec]

/-! ## The other instructions -/

/-- The ignored bits and the code bits of a RawResponse word are read back from their places (R87). -/
theorem decode_rspWord (x : BitVec 14) (d : BitVec 10) : decode (.rsp24 (rspWord x d)) = .ok (.rsp24 x d) := by
  have hx : (rspWord x d).extractLsb' 10 14 = x := BitVec.extractLsb'_append_eq_left
  have hd : (rspWord x d).extractLsb' 0 10 = d := BitVec.extractLsb'_append_eq_right
  simp only [decode, hx, hd]

/-- The decoder computes on the word of an instruction as soon as its chip, its mode and its optional operands are known. -/
theorem decode_encode (i : Instr) : decode (encode i) = .ok i.canonical := by
  cases i with
  | cmd24Mcp3002 c => exact (namesCmdRow_mcp3002 c).decode_encode
  | cmd24Mcp3004 cc => exact (namesCmdRow_mcp3004 cc).decode_encode
  | cmd24Mcp3008 ccc => exact (namesCmdRow_mcp3008 ccc).decode_encode
  | rsp24 x d => exact decode_rspWord x d
  | configure _ _ _ vref mode => cases vref <;> cases mode <;> rfl
  | sread ch => cases ch <;> rfl
  | read chip | encode chip => cases chip <;> rfl
  | _ => rfl

/-- Only a pattern row has another canonical name, and it runs as ENCODE of its channel bits. -/
theorem exec_canonical (i : Instr) (s : State) : exec i.canonical s = exec i s := by
  cases i with
  | cmd24Mcp3002 c => exact (namesCmdRow_mcp3002 c).exec_canonical rfl
  | cmd24Mcp3004 cc => exact (namesCmdRow_mcp3004 cc).exec_canonical rfl
  | cmd24Mcp3008 ccc => exact (namesCmdRow_mcp3008 ccc).exec_canonical rfl
  | _ => rfl

theorem canonical_eq_self {i : Instr} (h2 : ∀ c, i ≠ .cmd24Mcp3002 c) (h4 : ∀ cc, i ≠ .cmd24Mcp3004 cc)
    (h8 : ∀ ccc, i ≠ .cmd24Mcp3008 ccc) : i.canonical = i := by
  cases i with
  | cmd24Mcp3002 c => exact absurd rfl (h2 c)
  | cmd24Mcp3004 cc => exact absurd rfl (h4 cc)
  | cmd24Mcp3008 ccc => exact absurd rfl (h8 ccc)
  | _ => rfl

/-- Settles O38: the decoder reads the canonical name (log entry 2), which runs as the instruction does. -/
theorem decodeOfEncodeGivesTheInstruction : Obligations.DecodeOfEncodeGivesTheInstruction := fun i =>
  ⟨decode_encode i, exec_canonical i, canonical_eq_self⟩

end Sys2Proof.Machine
end
